-- ==== Sys2Proof/Word.lean ====
section
/-! DEFINITION. The words of the BG-620: link bytes, raw converter counts and the 39 bits of a store word. -/

namespace Sys2Proof

/-- One byte of a link transfer (R202, R203). -/
abbrev Byte := BitVec 8

/-- One raw converter count, a signed 24-bit integer (R56, R117). -/
abbrev RawCount := BitVec 24

/-- The seven address bits of a link transfer (R201). -/
abbrev LinkAddress := BitVec 7

/-- The 32 data bits and 7 check bits of a store word (section 9.3): a mask of flipped bits. -/
abbrev WordBits := BitVec 39

end Sys2Proof
end

