-- ==== Sys2Proof/Syntax.lean ====
section
/-! DEFINITION. The commands of the BG-620: one constructor of Instr for each row of spec/opcode_table.json. -/

namespace Sys2Proof

/-- The four ports; the port fixes the station's role (section 1.2 of the scope, R201). -/
inductive Port where
  | craneA | craneB | feed | office
  deriving DecidableEq, Repr

/-- The two cranes, and with them the two hooks, drain timers and drain watches. -/
inductive Crane where
  | craneA | craneB
  deriving DecidableEq, Repr

/-- The three entry contexts (section 2.1). -/
inductive Context where
  | craneA | craneB | feed
  deriving DecidableEq, Repr

/-- One channel of a scan: its raw count and its overload mark (R56, R117). -/
structure Reading where
  raw      : RawCount
  overload : Bool
  deriving DecidableEq, Repr

/-- How a station ends a write before its check byte is judged (R207). -/
inductive WriteEnd where
  | stop | repeatedStart
  deriving DecidableEq, Repr

/-- What a station sends after the body of a write transfer: its check byte, and whatever bytes it sends after that (R202). -/
structure WriteTail where
  check : Byte
  extra : List Byte
  deriving DecidableEq, Repr

/-- What a port's engine was doing when its station held the clock low too long (R208):
nothing, a write of which it had taken some bytes, or a read of which it had sent some bytes. -/
inductive LinkActivity where
  | idle
  | writing (bytes : List Byte)
  | reading (clocked : Nat)
  deriving DecidableEq, Repr

/-- The names of the account store's items (section 9.1). The FOUL items and the records are each one
name here; the position of one of them is given beside it. -/
inductive StoreKey where
  | setup
  | setting (n : Nat)
  | hook (h : Crane)
  | classFields (n : Nat)
  | classEdition (n : Nat)
  | job (n : Nat)
  | period
  | book
  | foul
  | counter
  | live
  | lost
  | records
  deriving DecidableEq, Repr

/-- Bits of one store word flipped by a disturbance: the item, its position where the item is one of a list,
the word within the item and the flipped bits among the 39 (R191). The spec gives disturbances no row of
their own; they reach the part as an operand of the steps that read the store (log 11). -/
structure Upset where
  key  : StoreKey
  pos  : Nat
  word : Nat
  bits : WordBits
  deriving DecidableEq, Repr

/-- What a word that was being written holds when the supply collapsed, where it does not hold its new value (R200): its old
value, or a mixture, a free value with the given bits in error. -/
inductive WordFate where
  | kept
  | mixed (bits : WordBits)
  deriving DecidableEq, Repr

/-- The fate of one word of the item that was being written (R200). -/
structure WordTear where
  word : Nat
  fate : WordFate
  deriving DecidableEq, Repr

/-- How far the write of the one item that was being written had come when the supply collapsed (R200): of a list of
items, how many of them had been taken out or put in before the one being written; and the words of that one that do not
hold their new value, which are all of its words, kept, where the write of that one had not begun. -/
structure ItemTear where
  edits : Nat
  words : List WordTear
  deriving DecidableEq, Repr

/-- How far the writes of one step had come when the supply collapsed (R190, R200): how many of its items, in the order
in which the step writes them, had been written, and whether the next one was being written. -/
structure StepTear where
  written : Nat
  torn    : Option ItemTear
  deriving DecidableEq, Repr

/-- What cuts a restart short (R194). -/
inductive CutCause where
  | supplyFail | reset
  deriving DecidableEq, Repr

/-- A restart stopped where it stands (R194): after the given number of items in its reading order (restartItems), or, one
above all of them, after the first step of its end (R198); and how many word steps of the next item it had made: each
word of the item read, and then, when the item is damaged, each word of it replaced. -/
structure RestartCut where
  after : Nat
  words : Nat
  cause : CutCause
  deriving DecidableEq, Repr

/-- The 36 requests of section 10.4. -/
inductive Request where
  | status | takeNotice | readBook | readLanes
  | reserve | release | join | lower | submerged | withdraw | clear | turned | leave | dropped
  | readHook | zeroHook
  | charge | chargeIn | chargeAbort | skim
  | setupKettle | tuneKettle | setClass | readClass | setHook
  | openJob | closeJob | readJob | removeJob
  | takeRecords | rebase | openBook | resume | hold | clearFoul | reconcileNow
  deriving DecidableEq, Repr

/-- The commands. Each request command is a whole write transfer addressed to the part on the port `p`, with the
body `body` (its declared length is the body's length) and a good check byte; the raw transfer whose check byte
or code may be bad, or that goes on after its check byte, is `unknownRequest`. -/
inductive Instr where
  | status (p : Port) (body : List Byte)
  | takeNotice (p : Port) (body : List Byte)
  | readBook (p : Port) (body : List Byte)
  | readLanes (p : Port) (body : List Byte)
  | reserve (p : Port) (body : List Byte)
  | release (p : Port) (body : List Byte)
  | join (p : Port) (body : List Byte)
  | lower (p : Port) (body : List Byte)
  | submerged (p : Port) (body : List Byte)
  | withdraw (p : Port) (body : List Byte)
  | clear (p : Port) (body : List Byte)
  | turned (p : Port) (body : List Byte)
  | leave (p : Port) (body : List Byte)
  | dropped (p : Port) (body : List Byte)
  | readHook (p : Port) (body : List Byte)
  | zeroHook (p : Port) (body : List Byte)
  | charge (p : Port) (body : List Byte)
  | chargeIn (p : Port) (body : List Byte)
  | chargeAbort (p : Port) (body : List Byte)
  | skim (p : Port) (body : List Byte)
  | setupKettle (p : Port) (body : List Byte)
  | tuneKettle (p : Port) (body : List Byte)
  | setClass (p : Port) (body : List Byte)
  | readClass (p : Port) (body : List Byte)
  | setHook (p : Port) (body : List Byte)
  | openJob (p : Port) (body : List Byte)
  | closeJob (p : Port) (body : List Byte)
  | readJob (p : Port) (body : List Byte)
  | removeJob (p : Port) (body : List Byte)
  | takeRecords (p : Port) (body : List Byte)
  | rebase (p : Port) (body : List Byte)
  | openBook (p : Port) (body : List Byte)
  | resume (p : Port) (body : List Byte)
  | hold (p : Port) (body : List Byte)
  | clearFoul (p : Port) (body : List Byte)
  | reconcileNow (p : Port) (body : List Byte)
  /-- A raw write transfer with its address, code, body and the end that the station gave it, judged whole by R204. -/
  | unknownRequest (p : Port) (addr : LinkAddress) (code : Byte) (body : List Byte) (tail : WriteTail)
  /-- A read transfer of which the station clocks `clocked` bytes before it ends it (R206). -/
  | readTransfer (p : Port) (addr : LinkAddress) (clocked : Nat)
  /-- A write transfer ended after `bytes`, before its check byte was judged (R207). -/
  | shortWrite (p : Port) (addr : LinkAddress) (bytes : List Byte) (ending : WriteEnd)
  /-- The station held the clock low for more than 35 ms in the course of `during` (R208). -/
  | linkLowTimeout (p : Port) (during : LinkActivity)
  | lapseExpiry (c : Context)
  | immersionLimitExpiry (c : Crane)
  | drainTimerTick (c : Crane)
  | timedCompareMet (c : Crane)
  | drainSaturation (c : Crane)
  /-- A load scan of both hooks; where the scan ends both drains, `first` names the one taken first (R101). -/
  | loadScan (hookA hookB : Reading) (first : Crane)
  | blankingEnd (c : Crane)
  /-- A bath scan; `upsets` are the store words disturbed since the last one (R192). -/
  | bathScan (level temp : Reading) (upsets : List Upset)
  | stopFall
  | stopRise
  | supplyFailFall
  | resetAssert
  /-- Power-on with the supply-fail input high; `upsets` are the words found disturbed, `cut` stops the restart
  where it stands. -/
  | powerOn (upsets : List Upset) (cut : Option RestartCut)
  | resetRelease (upsets : List Upset) (cut : Option RestartCut)
  | supplyFailRise (upsets : List Upset) (cut : Option RestartCut)
  /-- The supply collapses before the flush is done; `tears` says how far each step that the flush had to write had
  come, in the order of the steps, and a step beyond it was written whole. -/
  | supplyCollapse (tears : List StepTear)
  deriving DecidableEq, Repr

end Sys2Proof
end

