-- ==== Sys2Proof/Decode.lean ====
section
/-! DEFINITION. The command that a word spells by the opcode table's bits. The table gives no row any bits, so no word spells a
command (log 2); a command reaches the part through the queue of State. -/

namespace Sys2Proof

/-- The command a word spells: none, for every word (log 2). -/
def decodeTableWord (_nbits _w : Nat) : Option Instr := none

end Sys2Proof
end

