-- ==== Sys2Proof/Config.lean ====
section
/-! DEFINITION. What the spec fixes by number or leaves open: the bounds of the part, and the free values of the
store (values that nothing constrains). -/

namespace Sys2Proof.Config

/-- The number of lane records (R1). -/
def laneCount : Nat := 16
/-- The number of classes (R29). -/
def classCount : Nat := 16
/-- The number of job slots (R135). -/
def jobCount : Nat := 64
/-- The number of settings of TUNE KETTLE (R172). -/
def settingCount : Nat := 21
/-- The records the record queue holds at most (R177). -/
def recordRoom : Nat := 32
/-- The notices one notice queue holds at most (R185). -/
def noticeRoom : Nat := 16
/-- The samples of a hook's ring (R61) and the levels of the level history (R119). -/
def ringRoom : Nat := 16
/-- The body bytes a receive buffer stores at most (R202). -/
def bodyRoom : Nat := 48
/-- The bytes of an answer at most (R205). -/
def answerRoom : Nat := 1024
/-- The part's link address (section 10). -/
def linkAddress : LinkAddress := 0x4B
/-- 65,535: the bound of every 16-bit saturating count (section 3.1 of the scope). -/
def max16 : Nat := 65535
/-- 4,294,967,295: the greatest book mass (R105). -/
def maxMass : Nat := 4294967295
/-- 2^47 - 1: the bound of the cumulative totals (R108, R149). -/
def maxTotal : Nat := 140737488355327
/-- 2^48 - 1: the bound of a black sum (R150). -/
def maxBlackSum : Nat := 281474976710655

/-- The outcome of decoding a store word (R191). -/
inductive Decoding where
  | sound | corrected | damaged
  deriving DecidableEq, Repr, Inhabited

/-- FREE VALUE (log 10). What a word with three or more bits in error decodes as (R191). The spec says that the code does
not tell these apart, so nothing is known of this function; nor of the two after it. -/
opaque manyBitDecode : WordBits → Decoding

/-- FREE VALUE (log 10). The bit that is put right when such a word decodes as corrected (R191): this number modulo 39. -/
opaque manyBitFix : WordBits → Nat

/-- FREE VALUE (log 10). What words give that decode as sound or as corrected with the given bits other than as they were written:
of the image, the word read; of a list's entry, the entry (R191). Its own data where this is `none`. -/
opaque manyBitRead {α : Type} : α → List (Nat × WordBits) → Option α

/-- FREE VALUE (log 12). What a mixture of the old and the new value is, where the supply collapsed while words were being written
(R200): of the image, the words so left; of a list's entry, the entry, there or not. -/
opaque tornValue {α : Type} : α → α → List WordTear → Option α

/-- FREE VALUE (log 20). The zero that a ZERO HOOK sets when the ring holds fewer than S samples (R64, R80): the spec
states no mean for it. -/
opaque shortRingZero : List Int → Nat → RawCount

/-- FREE VALUE (log 32). A quotient with divisor 0, rounded to nearest, which a count of samples of 0 that restart read from
a misdecoded word makes a rule form (R71, R80, R191): the spec states no value for it. -/
opaque zeroQuotient : Int → Int

/-- FREE VALUE (log 34). How much of a dross zinc goes to the entry of a position when the black masses of the list sum
to 0 (R155, R200): the spec states no share there. -/
opaque zeroSumShare : Nat → Nat → Nat → Nat

end Sys2Proof.Config
end

