-- ==== Sys2Proof/Machine/Types.lean ====
section
/-! DEFINITION. The pieces of the BG-620's state, block by block, as plain data. -/

namespace Sys2Proof.Machine

/-! ### Pairs and quadruples -/

/-- One value for each crane. -/
structure PerCrane (α : Type) where
  craneA : α
  craneB : α
  deriving DecidableEq, Repr

/-- One value for each port. -/
structure PerPort (α : Type) where
  craneA : α
  craneB : α
  feed   : α
  office : α
  deriving DecidableEq, Repr

/-- The value of one crane. -/
def PerCrane.get {α : Type} (x : PerCrane α) : Crane → α
  | .craneA => x.craneA
  | .craneB => x.craneB

/-- The pair with one crane's value replaced. -/
def PerCrane.set {α : Type} (x : PerCrane α) (c : Crane) (v : α) : PerCrane α :=
  match c with
  | .craneA => { x with craneA := v }
  | .craneB => { x with craneB := v }

/-- The value of one port. -/
def PerPort.get {α : Type} (x : PerPort α) : Port → α
  | .craneA => x.craneA
  | .craneB => x.craneB
  | .feed => x.feed
  | .office => x.office

/-- The four values with one port's value replaced. -/
def PerPort.set {α : Type} (x : PerPort α) (p : Port) (v : α) : PerPort α :=
  match p with
  | .craneA => { x with craneA := v }
  | .craneB => { x with craneB := v }
  | .feed => { x with feed := v }
  | .office => { x with office := v }

end Sys2Proof.Machine

namespace Sys2Proof

/-- The port of a crane's station (section 1.2). -/
def Crane.port : Crane → Port
  | .craneA => .craneA
  | .craneB => .craneB

/-- The crane whose station is wired to a port, if any (section 1.2). -/
def Port.crane : Port → Option Crane
  | .craneA => some .craneA
  | .craneB => some .craneB
  | .feed => none
  | .office => none

/-- The other crane. -/
def Crane.other : Crane → Crane
  | .craneA => .craneB
  | .craneB => .craneA

end Sys2Proof

namespace Sys2Proof.Machine

/-! ### Kettle mode and part -/

/-- The kettle mode (section 7.1). -/
inductive Mode where
  | held | run | stopped
  deriving DecidableEq, Repr

/-- Whether the part takes steps, or a flush has stopped it (R193, R194). -/
inductive Phase where
  | running | flushed
  deriving DecidableEq, Repr

/-- The levels of the digital inputs and the supply (section 5 of the scope, R194, R200). -/
structure Inputs where
  stopLow       : Bool
  supFailLow    : Bool
  resetAsserted : Bool
  /-- the supply has collapsed and not risen since (R200) -/
  supplyLost    : Bool
  deriving DecidableEq, Repr

/-! ### Lane map -/

/-- The holder of a lane (R1). -/
inductive Holder where
  | free | craneA | craneB | tandem | feed | foul
  deriving DecidableEq, Repr

/-- A lane record (R1). -/
structure Lane where
  holder : Holder
  entry  : Option Nat
  deriving DecidableEq, Repr

/-- A lane span [f, l] (section 3.2 of the scope). -/
structure Span where
  f : Nat
  l : Nat
  deriving DecidableEq, Repr

/-- A FOUL item (R22). -/
structure FoulItem where
  entry : Nat
  f     : Nat
  l     : Nat
  deriving DecidableEq, Repr

/-- The kettle setup item (R3). -/
structure Setup where
  nl        : Nat
  g         : Nat
  fzf       : Nat
  fzl       : Nat
  confirmed : Bool
  deriving DecidableEq, Repr

/-- The 21 settings of TUNE KETTLE, in the order of the table of section 7.5. -/
structure Settings where
  lapse         : Nat
  steadyCount   : Nat
  band          : Nat
  holdAge       : Nat
  quietTime     : Nat
  interval      : Nat
  tolerance     : Nat
  alarm         : Nat
  trimGain      : Nat
  maxTrim       : Nat
  areaDensity   : Nat
  floorLevel    : Nat
  tempLow       : Nat
  tempHigh      : Nat
  feedLow       : Nat
  drossFraction : Nat
  ashFraction   : Nat
  levelZero     : Int
  levelSpan     : Nat
  tempZero      : Int
  tempSpan      : Nat
  deriving DecidableEq, Repr

/-! ### Classes -/

/-- The drain mode of a class (section 2.3). -/
inductive DrainMode where
  | sensed | timed | either
  deriving DecidableEq, Repr

/-- The basis of a class's expected hold (section 4.2). -/
inductive Basis where
  | last | prior
  deriving DecidableEq, Repr

/-- A class entry (section 2.3); the same fields make a class snapshot (R31). -/
structure ClassEntry where
  immMin       : Nat
  immLimit     : Nat
  drainMode    : DrainMode
  holdFactor   : Nat
  basis        : Basis
  initialHold  : Nat
  blanking     : Nat
  window       : Nat
  threshold    : Nat
  edition      : Nat
  count        : Nat
  last         : Option Nat
  prior        : Option Nat
  startRange   : Nat
  deriving DecidableEq, Repr

/-! ### Entry contexts -/

/-- The kind of an entry (section 2.1). -/
inductive EntryKind where
  | work | progressive | dross | charge
  deriving DecidableEq, Repr

/-- The state of an entry context (section 2.4). -/
inductive EntryState where
  | idle | reserved | lowering | immersed | withdrawing | turning | readySecond | draining | drained | linked
  deriving DecidableEq, Repr

/-- The join state of a tandem entry (section 2.1). -/
inductive JoinState where
  | joinPending | joined
  deriving DecidableEq, Repr

/-- The tandem link of a crane context (section 2.1). -/
inductive TandemLink where
  | alone | lead | linked
  deriving DecidableEq, Repr

/-- The job an entry was reserved for (R145). -/
structure JobRef where
  number : Nat
  slot   : Nat
  deriving DecidableEq, Repr

/-- The entry flags (section 2.10). -/
structure EntryFlags where
  newSettings    : Bool
  unsteadyBlack  : Bool
  noMass         : Bool
  shortDip       : Bool
  partialDip     : Bool
  overdip        : Bool
  stopDuring     : Bool
  holdOver       : Bool
  negativePickup : Bool
  deriving DecidableEq, Repr

/-- The withdraw demand of a crane context (R42). -/
structure Demand where
  overdip : Bool
  stop    : Bool
  deriving DecidableEq, Repr

/-- A crane context (R26). -/
structure CraneContext where
  entry      : Option Nat
  kind       : Option EntryKind
  state      : EntryState
  join       : Option JoinState
  link       : TandemLink
  job        : Option JobRef
  classNo    : Option Nat
  snapshot   : Option ClassEntry
  span       : Option Span
  endNo      : Option Nat
  immTimes   : List Nat
  immTimer   : Nat
  immRunning : Bool
  submerged  : Option Nat
  black      : Option Int
  flags      : EntryFlags
  demand     : Demand
  lapseMark  : Option Nat
  /-- the entry's lapse timer (R14): tenths of a second left while it runs -/
  lapse      : Option Nat
  /-- the current end's immersion limit has expired (R41) -/
  limitTaken : Bool
  deriving DecidableEq, Repr

/-- The feed context (R55). -/
structure FeedContext where
  entry     : Option Nat
  reserved  : Bool
  span      : Option Span
  mass      : Option Nat
  lapseMark : Option Nat
  lapse     : Option Nat
  deriving DecidableEq, Repr

/-- Which contexts hold a live entry (R197). -/
inductive Holders where
  | craneA | craneB | both | feed
  deriving DecidableEq, Repr

/-- An item of the live-entry list (R197). -/
structure LiveEntry where
  entry   : Nat
  holders : Holders
  deriving DecidableEq, Repr

/-! ### Hooks -/

/-- The health of a measurement channel (R59, R118). -/
inductive Health where
  | good | fault
  deriving DecidableEq, Repr

/-- A sample of a hook: its raw count and, when good, its mass; an OVER sample has no mass (R58). -/
structure Sample where
  raw  : Int
  mass : Option Int
  deriving DecidableEq, Repr

/-- The hook item of the account store (R60). -/
structure Calibration where
  zero       : Int
  span       : Nat
  calibrated : Bool
  deriving DecidableEq, Repr

/-- The state of one hook (chapter 3). A steady mean is present exactly when the hook is steady (R62). -/
structure Hook where
  cal     : Calibration
  health  : Health
  overRun : Nat
  goodRun : Nat
  ring    : List Sample
  steady  : Option Int
  held    : Option Int
  heldAge : Nat
  deriving DecidableEq, Repr

/-- The phase of a drain watch (section 3.6). -/
inductive WatchPhase where
  | inactive | blanking | after
  deriving DecidableEq, Repr

/-- The window condition of a drain watch (section 3.6). -/
inductive WindowCondition where
  | opened | shut
  deriving DecidableEq, Repr

/-- A value of the tail, marked as taken in blanking or after it (R69). -/
structure TailValue where
  mass       : Int
  inBlanking : Bool
  deriving DecidableEq, Repr

/-- A drain watch (section 3.6). -/
structure Watch where
  phase     : WatchPhase
  condition : WindowCondition
  remaining : Nat
  afterScans : Nat
  window    : List Int
  lastDrop  : Option Int
  tail      : List TailValue
  blanking  : Nat
  width     : Nat
  threshold : Nat
  bothHooks : Bool
  deriving DecidableEq, Repr

/-! ### Drain timers -/

/-- The state of a drain timer (section 4.1). -/
inductive TimerState where
  | stopped | running | saturated
  deriving DecidableEq, Repr

/-- A drain timer (section 4.1). -/
structure DrainTimer where
  state        : TimerState
  counter      : Nat
  range        : Nat
  compare      : Nat
  hold         : Option Nat
  mode         : Option DrainMode
  inBlanking   : Bool
  timedPending : Bool
  sensed       : Option Nat
  deriving DecidableEq, Repr

/-- The cause that ends a drain (R46). -/
inductive EndCause where
  | sensed | timed | saturated | earlyLeave
  deriving DecidableEq, Repr

/-! ### Bath scanner and bath book -/

/-- One channel of the bath scanner (R118). -/
structure Channel where
  health     : Health
  invalidRun : Nat
  validRun   : Nat
  deriving DecidableEq, Repr

/-- The bath scanner (section 5.5). -/
structure BathScanner where
  level   : Channel
  temp    : Channel
  levels  : List Nat
  stored  : Option Nat
  age     : Nat
  deriving DecidableEq, Repr

/-- The book state (R107). -/
inductive BookState where
  | valid | drifting | invalid
  deriving DecidableEq, Repr

/-- The durable bath book (R105, R106). -/
structure Book where
  mass        : Nat
  state       : BookState
  saturated   : Bool
  opening     : Nat
  charged     : Nat
  picked      : Nat
  dross       : Nat
  ash         : Nat
  unallocated : Nat
  adjusted    : Int
  deriving DecidableEq, Repr

/-- The volatile part of the bath book (section 5.1). The quiet timer and the time since the last reconcile are held
in tenths of a second, so that whole seconds and minutes are read off them rounded down. -/
structure Reconcile where
  gauge       : Option Nat
  diff        : Option Int
  since       : Option Nat
  pending     : Bool
  quiet       : Option Nat
  quietLevels : Nat
  judgedQuiet : Bool
  deriving DecidableEq, Repr

/-! ### Jobs -/

/-- The state of a job slot (section 6.1). -/
inductive JobState where
  | free | opened | closing | closed | damaged
  deriving DecidableEq, Repr

/-- A job slot (section 6.1). -/
structure JobSlot where
  state            : JobState
  number           : Option Nat
  defaultClass     : Option Nat
  blackTotal       : Int
  pickupTotal      : Nat
  drossShare       : Nat
  dipCount         : Nat
  droppedCount     : Nat
  noMassCount      : Nat
  openDips         : Nat
  firstEntry       : Option Nat
  lastEntry        : Option Nat
  drossUnallocated : Bool
  deriving DecidableEq, Repr

/-- An entry of the period list (R150). -/
structure PeriodEntry where
  slot  : Nat
  black : Nat
  deriving DecidableEq, Repr

/-! ### Records and notices -/

/-- The crane or cranes of a record (R181). -/
inductive Cranes where
  | craneA | craneB | both
  deriving DecidableEq, Repr

/-- A DIP record's fields (R180, R181). -/
structure DipRecord where
  entry     : Nat
  kind      : EntryKind
  cranes    : Cranes
  job       : Nat
  classNo   : Nat
  edition   : Nat
  black     : Option Int
  drained   : Option Int
  pickup    : Option Int
  immTimes  : List Nat
  duration  : Nat
  cause     : EndCause
  flags     : EntryFlags
  deriving DecidableEq, Repr

/-- A JOB_CLOSED record's fields (R141, R180). -/
structure JobClosedRecord where
  slot             : Nat
  job              : Nat
  blackTotal       : Int
  pickupTotal      : Nat
  drossShare       : Nat
  dipCount         : Nat
  droppedCount     : Nat
  noMassCount      : Nat
  firstEntry       : Option Nat
  lastEntry        : Option Nat
  drossUnallocated : Bool
  deriving DecidableEq, Repr

/-- An entry of the damaged item list: region code and item index (R196). -/
structure DamagedItem where
  region : Nat
  index  : Nat
  deriving DecidableEq, Repr

/-- The fields of a record, by kind (R180). -/
inductive RecordBody where
  | dip (r : DipRecord)
  | dross (entry : Nat) (cranes : Cranes) (x : Option Int) (zc : Nat)
  | charge (entry mass : Nat) (clamped : Bool)
  | skim (mass za : Nat)
  | trim (d a : Int)
  | drift (d : Int) (g : Nat)
  | bookOpened (opening : Nat)
  | allocation (zc : Nat) (pairs : List (Nat × Nat))
  | jobClosed (r : JobClosedRecord)
  | dropped (entry : Nat) (job : Option Nat) (f l : Nat)
  | restart (abandoned : List LiveEntry) (damaged : List DamagedItem)
  deriving DecidableEq, Repr

/-- A record with its optional gap (R178). -/
structure Record where
  gap  : Option Nat
  body : RecordBody
  deriving DecidableEq, Repr

/-- The record queue (R177). `offered` is the model's own: how many records steps have queued, those that found no room among
them, by which it tells the steps that write the lost count (R178, log 12). -/
structure RecordQueue where
  items   : List Record
  lost    : Nat
  offered : Nat
  deriving DecidableEq, Repr

/-- A notice, by kind (R186). -/
inductive Notice where
  | lapsed (entry : Nat)
  | overdip (entry endNo : Nat)
  | holdOver (entry classNo : Nat)
  | drainEnd (entry : Nat) (kind : EntryKind) (cause : EndCause) (value : Option Int)
  | hookFault (hook : Crane)
  | joinWanted (entry f l : Nat)
  | stopped (ended : Mode)
  | resumed
  | feedLow (mass : Nat)
  | drift (d : Int)
  | bookInvalid
  | jobClosed (job : Nat)
  | storeDamage (count : Nat)
  deriving DecidableEq, Repr

/-- A notice queue with its overflow flag (R185). -/
structure NoticeQueue where
  items    : List Notice
  overflow : Bool
  deriving DecidableEq, Repr

/-! ### Port engines -/

/-- The status codes (section 10.6). -/
inductive Status where
  | ok | badCheck | badLength | unknownRequest | notPermitted | badValue | wrongState | kettleNotRun | lanesTaken
  | orderConflict | tempOut | lapsed | noJob | jobNotOpen | tableFull | duplicate | dipsOpen | notLead | noAnswer
  | mapNotEmpty | hookUnsteady
  deriving DecidableEq, Repr

/-- The transfer state of a port engine (R201). -/
inductive TransferState where
  | idle | receiving | awaitingCheck | sending
  deriving DecidableEq, Repr

/-- The stretch of a port engine (section 10.1). -/
inductive Stretch where
  | none | read | write
  deriving DecidableEq, Repr

/-- The receive buffer: what has been taken of a write transfer (section 10.1, R202). -/
structure ReceiveBuffer where
  code     : Option Byte
  declared : Nat
  body     : List Byte
  check    : Byte
  deriving DecidableEq, Repr

/-- The answer slot (R205). A PENDING slot holds the request that was handed to its owning block. -/
inductive AnswerSlot where
  | empty
  | pending (r : Request) (body : List Byte)
  | ready (status : Status) (bytes : List Byte)
  deriving DecidableEq, Repr

/-- A port engine (R201). -/
structure Engine where
  transfer : TransferState
  rx       : ReceiveBuffer
  slot     : AnswerSlot
  stretch  : Stretch
  /-- the sending buffer: what is being sent of an answer (R206) -/
  tx       : List Byte
  /-- the model's own output: the bytes the station clocked off the link in its last read -/
  sent     : List Byte
  deriving DecidableEq, Repr

/-! ### Output lines -/

/-- The output lines; `true` is high for a permit, withdraw-demand or feed-demand line (R134, R169, R170) and driven low
for a call line, which is active low (R211). -/
structure Lines where
  permit : PerCrane Bool
  wdraw  : PerCrane Bool
  feed   : Bool
  call   : PerPort Bool
  deriving DecidableEq, Repr

/-! ### Account store -/

/-- The values of the account store's items (section 9.1). The edition of a class is an item word of its own (R29). -/
structure StoreImage where
  setup    : Setup
  settings : Settings
  hooks    : PerCrane Calibration
  classes  : List ClassEntry
  jobs     : List JobSlot
  period   : List PeriodEntry
  book     : Book
  foul     : List FoulItem
  counter  : Nat
  live     : List LiveEntry
  records  : RecordQueue
  deriving DecidableEq, Repr

/-- A word of the account store that does not stand as its owning block wrote it (section 9.3, log 9, log 10): `wrong` are the
bits in which a wrong correction that was written back left it otherwise than it was written, with check bits that agree (R191);
`bits` are the bits, among the 39, that are in error beside those. -/
structure BadWord where
  key   : StoreKey
  pos   : Nat
  word  : Nat
  wrong : WordBits
  bits  : WordBits
  deriving DecidableEq, Repr

/-- The account store: the values last written by the owning blocks, and the words that do not stand as written (section 9.3,
log 9). -/
structure Store where
  image : StoreImage
  flips : List BadWord
  deriving DecidableEq, Repr

/-- When a step's store writes are due (R190). -/
inductive Deadline where
  | loadScan | bathScan | lapse
  deriving DecidableEq, Repr

/-- Store writes made one after another: items, in the order in which they are written, and the working copies of them at
that point of the step (R190). -/
structure StepWrites where
  image : StoreImage
  keys  : List StoreKey
  deriving DecidableEq, Repr

/-- The store writes of a step that are not made yet, in the order of the rule that owns the step, and when they are due
(R190). -/
structure DueStep where
  due    : Deadline
  writes : List StepWrites
  deriving DecidableEq, Repr

/-- What a collapse of the supply can still catch: the store as the flush found it, the steps whose writes the flush had to
complete, and the write of the live-entry list after them (R193, R200). -/
structure FlushWork where
  store : Store
  steps : List (List StepWrites)
  last  : StepWrites
  deriving DecidableEq, Repr

end Sys2Proof.Machine
end

