-- ==== Sys2Proof/Machine/Codec.lean ====
section
/-! DEFINITION. Byte order, the check byte, rounding, and the codes of link fields (sections 3.2 and 3.3 of the scope,
R203, R209, R210). -/

namespace Sys2Proof.Machine

/-! ### Little-endian fields -/

/-- The low `n` bytes of `v`, least significant first. -/
def le : Nat → Nat → List Byte
  | 0, _ => []
  | n + 1, v => BitVec.ofNat 8 v :: le n (v / 256)

/-- The `n` bytes of a signed value in two's complement, least significant first. -/
def leSigned (n : Nat) (v : Int) : List Byte := le n (v % (2 ^ (8 * n) : Nat)).toNat

/-- The unsigned value of little-endian bytes. -/
def fromLe : List Byte → Nat
  | [] => 0
  | b :: bs => b.toNat + 256 * fromLe bs

/-- The unsigned field of `n` bytes at an offset of a body. -/
def field (body : List Byte) (off n : Nat) : Nat := fromLe ((body.drop off).take n)

/-- A value of `n` bytes read as signed. -/
def asSigned (n v : Nat) : Int := if v < 2 ^ (8 * n - 1) then (v : Int) else (v : Int) - (2 ^ (8 * n) : Nat)

/-- The signed field of `n` bytes at an offset of a body. -/
def signedField (body : List Byte) (off n : Nat) : Int := asSigned n (field body off n)

/-! ### The check byte (R203) -/

/-- One shift of the check: combined with 0x2F whenever the bit shifted out was 1. -/
def crcShift (c : Byte) : Byte := if c.msb then (c <<< 1) ^^^ 0x2F else c <<< 1

/-- `n` shifts of the check. -/
def crcShifts : Nat → Byte → Byte
  | 0, c => c
  | n + 1, c => crcShifts n (crcShift c)

/-- A byte added to the check. -/
def crcByte (c b : Byte) : Byte := crcShifts 8 (c ^^^ b)

/-- The check over bytes in transfer order, starting from 0xFF. -/
def crc (bytes : List Byte) : Byte := bytes.foldl crcByte 0xFF

/-! ### Rounding (section 3.3 of the scope) -/

/-- `n / d` rounded to nearest, ties away from zero; a divisor of 0 gives a free value (log 32). -/
def roundDiv (n : Int) (d : Nat) : Int :=
  if d = 0 then Config.zeroQuotient n
  else if 0 ≤ n then (2 * n + d) / (2 * d : Nat) else -((2 * -n + d) / (2 * d : Nat))

/-- `n / d` rounded toward plus infinity. -/
def ceilDiv (n d : Nat) : Nat := (n + d - 1) / d

/-- The mean of masses, rounded to nearest with ties away from zero; absent for no masses. -/
def meanOf (ms : List Int) : Option Int := if ms.isEmpty then none else some (roundDiv ms.sum ms.length)

/-- `v` limited to `lo..hi`. -/
def clampInt (lo hi v : Int) : Int := if v < lo then lo else if hi < v then hi else v

/-! ### Codes of enumerations (R209, R210)

Each value is coded by its position, from 1, in the list where the manual first gives the values. -/

/-- HELD, RUN, STOPPED. -/
def Mode.code : Mode → Nat
  | .held => 1
  | .run => 2
  | .stopped => 3

/-- The holders in the order of the table of section 1.1. -/
def Holder.code : Holder → Nat
  | .free => 1
  | .craneA => 2
  | .craneB => 3
  | .tandem => 4
  | .feed => 5
  | .foul => 6

/-- WORK, PROGRESSIVE, DROSS, CHARGE. -/
def EntryKind.code : EntryKind → Nat
  | .work => 1
  | .progressive => 2
  | .dross => 3
  | .charge => 4

/-- The entry states in the order of the table of section 2.4. -/
def EntryState.code : EntryState → Nat
  | .idle => 1
  | .reserved => 2
  | .lowering => 3
  | .immersed => 4
  | .withdrawing => 5
  | .turning => 6
  | .readySecond => 7
  | .draining => 8
  | .drained => 9
  | .linked => 10

/-- join-pending, joined. -/
def JoinState.code : JoinState → Nat
  | .joinPending => 1
  | .joined => 2

/-- none, lead, linked. -/
def TandemLink.code : TandemLink → Nat
  | .alone => 1
  | .lead => 2
  | .linked => 3

/-- SENSED, TIMED, EITHER. -/
def DrainMode.code : DrainMode → Nat
  | .sensed => 1
  | .timed => 2
  | .either => 3

/-- LAST, PRIOR. -/
def Basis.code : Basis → Nat
  | .last => 1
  | .prior => 2

/-- SENSED, TIMED, SATURATED, EARLY_LEAVE. -/
def EndCause.code : EndCause → Nat
  | .sensed => 1
  | .timed => 2
  | .saturated => 3
  | .earlyLeave => 4

/-- GOOD, FAULT. -/
def Health.code : Health → Nat
  | .good => 1
  | .fault => 2

/-- INACTIVE, BLANKING, AFTER. -/
def WatchPhase.code : WatchPhase → Nat
  | .inactive => 1
  | .blanking => 2
  | .after => 3

/-- OPEN, SHUT. -/
def WindowCondition.code : WindowCondition → Nat
  | .opened => 1
  | .shut => 2

/-- VALID, DRIFTING, INVALID. -/
def BookState.code : BookState → Nat
  | .valid => 1
  | .drifting => 2
  | .invalid => 3

/-- FREE, OPEN, CLOSING, CLOSED, DAMAGED. -/
def JobState.code : JobState → Nat
  | .free => 1
  | .opened => 2
  | .closing => 3
  | .closed => 4
  | .damaged => 5

/-- crane A, crane B, both (R181). -/
def Cranes.code : Cranes → Nat
  | .craneA => 1
  | .craneB => 2
  | .both => 3

/-- crane A, crane B, both, feed (R199). -/
def Holders.code : Holders → Nat
  | .craneA => 1
  | .craneB => 2
  | .both => 3
  | .feed => 4

/-- Hook A 1, hook B 2 (R209). -/
def hookCode : Crane → Nat
  | .craneA => 1
  | .craneB => 2

/-- CONFIRMED 1, UNCONFIRMED 2 (R3); CALIBRATED 1, DEFAULTED 2 (section 3). -/
def firstOfTwo (b : Bool) : Nat := if b then 1 else 2

/-- The status codes (section 10.6). -/
def Status.code : Status → Nat
  | .ok => 0x00
  | .badCheck => 0x01
  | .badLength => 0x02
  | .unknownRequest => 0x03
  | .notPermitted => 0x04
  | .badValue => 0x05
  | .wrongState => 0x06
  | .kettleNotRun => 0x07
  | .lanesTaken => 0x08
  | .orderConflict => 0x09
  | .tempOut => 0x0A
  | .lapsed => 0x0B
  | .noJob => 0x0C
  | .jobNotOpen => 0x0D
  | .tableFull => 0x0E
  | .duplicate => 0x0F
  | .dipsOpen => 0x10
  | .notLead => 0x11
  | .noAnswer => 0x12
  | .mapNotEmpty => 0x13
  | .hookUnsteady => 0x14

/-! ### Codes read from a body (R209) -/

/-- WORK 1, PROGRESSIVE 2, DROSS 3. -/
def kindOfCode : Nat → Option EntryKind
  | 1 => some .work
  | 2 => some .progressive
  | 3 => some .dross
  | _ => none

/-- SENSED 1, TIMED 2, EITHER 3. -/
def drainModeOfCode : Nat → Option DrainMode
  | 1 => some .sensed
  | 2 => some .timed
  | 3 => some .either
  | _ => none

/-- LAST 1, PRIOR 2. -/
def basisOfCode : Nat → Option Basis
  | 1 => some .last
  | 2 => some .prior
  | _ => none

/-- Hook A 1, B 2. -/
def hookOfCode : Nat → Option Crane
  | 1 => some .craneA
  | 2 => some .craneB
  | _ => none

/-! ### Field kinds of an answer (R210) -/

/-- One unsigned byte. -/
def u8 (v : Nat) : List Byte := le 1 v
/-- Two unsigned bytes. -/
def u16 (v : Nat) : List Byte := le 2 v
/-- Three unsigned bytes: a job number. -/
def u24 (v : Nat) : List Byte := le 3 v
/-- Four unsigned bytes. -/
def u32 (v : Nat) : List Byte := le 4 v
/-- Six unsigned bytes: a cumulative total. -/
def u48 (v : Nat) : List Byte := le 6 v
/-- A yes or no, set or clear, or line level. -/
def yesNo (b : Bool) : List Byte := u8 (if b then 1 else 0)
/-- A mass: four signed bytes. -/
def massBytes (m : Int) : List Byte := leSigned 4 m
/-- An entry number or a job number is 0 when absent. -/
def numberOr0 (n : Option Nat) : Nat := n.getD 0
/-- An optional field: a presence byte, then the value, or zeros in its place. -/
def optional {α : Type} (bytes : Nat) (code : α → List Byte) : Option α → List Byte
  | none => u8 0 ++ le bytes 0
  | some v => u8 1 ++ code v

end Sys2Proof.Machine
end

