-- ==== Sys2Proof/Machine/Operands.lean ====
section
/-! DEFINITION. The request table of section 10.4 (codes, roles, body lengths), and the body fields of every request,
each read from its bytes and written back to them (R209). -/

namespace Sys2Proof

/-! ### The request table -/

/-- The request code (section 10.4). -/
def Request.code : Request → Byte
  | .status => 0x01
  | .takeNotice => 0x02
  | .readBook => 0x03
  | .readLanes => 0x04
  | .reserve => 0x10
  | .release => 0x11
  | .join => 0x12
  | .lower => 0x13
  | .submerged => 0x14
  | .withdraw => 0x15
  | .clear => 0x16
  | .turned => 0x17
  | .leave => 0x18
  | .dropped => 0x19
  | .readHook => 0x1A
  | .zeroHook => 0x1B
  | .charge => 0x20
  | .chargeIn => 0x21
  | .chargeAbort => 0x22
  | .skim => 0x23
  | .setupKettle => 0x30
  | .tuneKettle => 0x31
  | .setClass => 0x32
  | .readClass => 0x33
  | .setHook => 0x34
  | .openJob => 0x35
  | .closeJob => 0x36
  | .readJob => 0x37
  | .removeJob => 0x38
  | .takeRecords => 0x39
  | .rebase => 0x3A
  | .openBook => 0x3B
  | .resume => 0x3C
  | .hold => 0x3D
  | .clearFoul => 0x3E
  | .reconcileNow => 0x3F

/-- Every request, in the order of the table. -/
def Request.all : List Request :=
  ([.status, .takeNotice, .readBook, .readLanes, .reserve, .release, .join, .lower, .submerged, .withdraw, .clear,
    .turned, .leave, .dropped, .readHook, .zeroHook] : List Request) ++
  ([.charge, .chargeIn, .chargeAbort, .skim, .setupKettle, .tuneKettle, .setClass, .readClass, .setHook, .openJob,
    .closeJob, .readJob, .removeJob, .takeRecords, .rebase, .openBook, .resume, .hold, .clearFoul, .reconcileNow] :
    List Request)

/-- The request a code names, if the table names one (R204, step 2). -/
def Request.ofCode (code : Byte) : Option Request := Request.all.find? (fun r => r.code == code)

/-- Who may write a request (the Roles column of section 10.4). -/
inductive Roles where
  | all | cranes | feed | office
  deriving DecidableEq, Repr

/-- The roles of a request (section 10.4). -/
def Request.roles : Request → Roles
  | .status | .takeNotice | .readBook | .readLanes => .all
  | .reserve | .release | .join | .lower | .submerged | .withdraw | .clear | .turned | .leave | .dropped | .readHook
  | .zeroHook => .cranes
  | .charge | .chargeIn | .chargeAbort | .skim => .feed
  | .setupKettle | .tuneKettle | .setClass | .readClass | .setHook | .openJob | .closeJob | .readJob | .removeJob
  | .takeRecords | .rebase | .openBook | .resume | .hold | .clearFoul | .reconcileNow => .office

/-- Whether a port's role appears in a Roles column (R209). -/
def Roles.permits : Roles → Port → Bool
  | .all, _ => true
  | .cranes, .craneA => true
  | .cranes, .craneB => true
  | .feed, .feed => true
  | .office, .office => true
  | _, _ => false

/-- Whether the table allows a body length for a request (section 10.4, R172). -/
def Request.lengthOk (r : Request) (n : Nat) : Bool :=
  match r with
  | .reserve => n == 8
  | .join | .charge | .skim | .clearFoul => n == 2
  | .readHook | .readClass | .removeJob | .takeRecords => n == 1
  | .setupKettle | .openJob | .closeJob | .readJob | .openBook => n == 4
  | .setHook => n == 6
  | .setClass => n == 14
  | .tuneKettle => 5 ≤ n && n ≤ 45 && n % 5 == 0
  | _ => n == 0

end Sys2Proof

namespace Sys2Proof.Machine

/-! ### Body fields -/

/-- The fields of RESERVE (R5). -/
structure ReserveArgs where
  kind   : Nat
  tandem : Nat
  f      : Nat
  l      : Nat
  job    : Nat
  cls    : Nat
  deriving DecidableEq, Repr

/-- The value of RESERVE's class number that stands for "default" (section 10.4). -/
def classDefault : Nat := 255

/-- RESERVE's fields read from its body. -/
def ReserveArgs.read (b : List Byte) : ReserveArgs :=
  { kind := field b 0 1, tandem := field b 1 1, f := field b 2 1, l := field b 3 1, job := field b 4 3,
    cls := field b 7 1 }

/-- RESERVE's body. -/
def ReserveArgs.bytes (a : ReserveArgs) : List Byte :=
  u8 a.kind ++ u8 a.tandem ++ u8 a.f ++ u8 a.l ++ u24 a.job ++ u8 a.cls

/-- The fields of SETUP KETTLE (R4). -/
structure SetupArgs where
  nl  : Nat
  g   : Nat
  fzf : Nat
  fzl : Nat
  deriving DecidableEq, Repr

/-- SETUP KETTLE's fields read from its body. -/
def SetupArgs.read (b : List Byte) : SetupArgs :=
  { nl := field b 0 1, g := field b 1 1, fzf := field b 2 1, fzl := field b 3 1 }

/-- SETUP KETTLE's body. -/
def SetupArgs.bytes (a : SetupArgs) : List Byte := u8 a.nl ++ u8 a.g ++ u8 a.fzf ++ u8 a.fzl

/-- One pair of TUNE KETTLE: a setting number and the four bytes of its value, read unsigned (R172). -/
structure TunePair where
  number : Nat
  raw    : Nat
  deriving DecidableEq, Repr

/-- The pairs of a TUNE KETTLE body, five bytes each; `fuel` bounds their number. -/
def readPairs : Nat → List Byte → List TunePair
  | 0, _ => []
  | fuel + 1, b =>
    match b with
    | [] => []
    | _ => { number := field b 0 1, raw := field b 1 4 } :: readPairs fuel (b.drop 5)

/-- TUNE KETTLE's pairs read from its body. -/
def TunePair.readAll (b : List Byte) : List TunePair := readPairs (b.length / 5) b

/-- TUNE KETTLE's body. -/
def TunePair.bytesAll : List TunePair → List Byte
  | [] => []
  | p :: ps => u8 p.number ++ u32 p.raw ++ TunePair.bytesAll ps

/-- Whether a setting is one of the zeros, whose value is signed (R172). -/
def settingSigned (n : Nat) : Bool := n == 18 || n == 20

/-- The value a pair gives its setting: signed for the zeros, unsigned for every other setting (R172). -/
def TunePair.value (p : TunePair) : Int := if settingSigned p.number then asSigned 4 p.raw else (p.raw : Int)

/-- The fields of SET CLASS (R30). -/
structure SetClassArgs where
  number      : Nat
  immMin      : Nat
  immLimit    : Nat
  drainMode   : Nat
  holdFactor  : Nat
  basis       : Nat
  initialHold : Nat
  blanking    : Nat
  window      : Nat
  threshold   : Nat
  deriving DecidableEq, Repr

/-- SET CLASS's fields read from its body. -/
def SetClassArgs.read (b : List Byte) : SetClassArgs :=
  { number := field b 0 1, immMin := field b 1 2, immLimit := field b 3 2, drainMode := field b 5 1,
    holdFactor := field b 6 1, basis := field b 7 1, initialHold := field b 8 2, blanking := field b 10 1,
    window := field b 11 1, threshold := field b 12 2 }

/-- SET CLASS's body. -/
def SetClassArgs.bytes (a : SetClassArgs) : List Byte :=
  u8 a.number ++ u16 a.immMin ++ u16 a.immLimit ++ u8 a.drainMode ++ u8 a.holdFactor ++ u8 a.basis ++
    u16 a.initialHold ++ u8 a.blanking ++ u8 a.window ++ u16 a.threshold

/-- The fields of SET HOOK (R81). -/
structure SetHookArgs where
  hook : Nat
  zero : Int
  span : Nat
  deriving DecidableEq, Repr

/-- SET HOOK's fields read from its body. -/
def SetHookArgs.read (b : List Byte) : SetHookArgs :=
  { hook := field b 0 1, zero := signedField b 1 3, span := field b 4 2 }

/-- SET HOOK's body. -/
def SetHookArgs.bytes (a : SetHookArgs) : List Byte := u8 a.hook ++ leSigned 3 a.zero ++ u16 a.span

/-- Two fields, a three-byte one and a one-byte one: OPEN JOB's job number and default class (R137), CLOSE JOB's job
number and mode (R138). -/
structure JobArgs where
  job   : Nat
  other : Nat
  deriving DecidableEq, Repr

/-- OPEN JOB's or CLOSE JOB's fields read from its body. -/
def JobArgs.read (b : List Byte) : JobArgs := { job := field b 0 3, other := field b 3 1 }

/-- OPEN JOB's or CLOSE JOB's body. -/
def JobArgs.bytes (a : JobArgs) : List Byte := u24 a.job ++ u8 a.other

/-- The fields of READ JOB (R143): selector SLOT 1 or NUMBER 2, and a value. -/
structure ReadJobArgs where
  selector : Nat
  value    : Nat
  deriving DecidableEq, Repr

/-- READ JOB's fields read from its body. -/
def ReadJobArgs.read (b : List Byte) : ReadJobArgs := { selector := field b 0 1, value := field b 1 3 }

/-- READ JOB's body. -/
def ReadJobArgs.bytes (a : ReadJobArgs) : List Byte := u8 a.selector ++ u24 a.value

/-- The one field of JOIN, CLEAR FOUL (an entry number), CHARGE and SKIM (a mass). -/
def readU16 (b : List Byte) : Nat := field b 0 2

/-- The one field of READ HOOK, READ CLASS, REMOVE JOB and TAKE RECORDS. -/
def readU8 (b : List Byte) : Nat := field b 0 1

/-- The one field of OPEN BOOK. -/
def readU32 (b : List Byte) : Nat := field b 0 4

end Sys2Proof.Machine
end

