-- ==== Sys2Proof/Machine/Defaults.lean ====
section
/-! DEFINITION. The default, idle and new-part values of every piece of state (the tables of sections 1.2, 2.1, 2.3,
3.4, 4.1, 5.1, 5.3 and 6.1, and R189). -/

namespace Sys2Proof.Machine

/-- A FREE lane (R1). -/
def Lane.free : Lane := { holder := .free, entry := none }

/-- The sixteen FREE lanes of a map with no FOUL item (R2). -/
def freeLanes : List Lane := List.replicate Config.laneCount Lane.free

/-- The default kettle setup of section 1.2 with the given confirmation state (R3, R189). -/
def Setup.default (confirmed : Bool) : Setup := { nl := 12, g := 1, fzf := 11, fzl := 11, confirmed := confirmed }

/-- The default settings (sections 1.2, 3.4 and 5.3). -/
def Settings.default : Settings :=
  { lapse := 90, steadyCount := 8, band := 20, holdAge := 300, quietTime := 30, interval := 30, tolerance := 2000,
    alarm := 20000, trimGain := 4, maxTrim := 1000, areaDensity := 40000, floorLevel := 0, tempLow := 4400,
    tempHigh := 4600, feedLow := 3000000, drossFraction := 243, ashFraction := 180, levelZero := 0, levelSpan := 4096,
    tempZero := 0, tempSpan := 1024 }

/-- A class at its factory default with the given edition (section 2.3, R29, R32). -/
def ClassEntry.factory (edition : Nat) : ClassEntry :=
  { immMin := 0, immLimit := 3000, drainMode := .either, holdFactor := 32, basis := .last, initialHold := 1200,
    blanking := 20, window := 16, threshold := 10, edition := edition, count := 0, last := none, prior := none,
    startRange := 3 }

/-- The empty flag set (R54). -/
def EntryFlags.empty : EntryFlags :=
  { newSettings := false, unsteadyBlack := false, noMass := false, shortDip := false, partialDip := false,
    overdip := false, stopDuring := false, holdOver := false, negativePickup := false }

/-- The empty withdraw demand (R42). -/
def Demand.empty : Demand := { overdip := false, stop := false }

/-- A crane context in IDLE with a given lapse mark (R26). -/
def CraneContext.idle (mark : Option Nat) : CraneContext :=
  { entry := none, kind := none, state := .idle, join := none, link := .alone, job := none, classNo := none,
    snapshot := none, span := none, endNo := none, immTimes := [], immTimer := 0, immRunning := false,
    submerged := none, black := none, flags := EntryFlags.empty, demand := Demand.empty, lapseMark := mark,
    lapse := none, limitTaken := false }

/-- The feed context in IDLE with a given lapse mark (R26). -/
def FeedContext.idle (mark : Option Nat) : FeedContext :=
  { entry := none, reserved := false, span := none, mass := none, lapseMark := mark, lapse := none }

/-- The calibration of a new part's hooks (R189). -/
def Calibration.newPart : Calibration := { zero := 0, span := 65535, calibrated := true }

/-- The calibration that replaces a damaged hook item (R60). -/
def Calibration.defaulted : Calibration := { zero := 0, span := 1, calibrated := false }

/-- A hook as restart leaves it with a calibration (R60, R61, R63). -/
def Hook.restarted (cal : Calibration) : Hook :=
  { cal := cal, health := if cal.calibrated then .good else .fault, overRun := 0, goodRun := 0, ring := [],
    steady := none, held := none, heldAge := 0 }

/-- An INACTIVE drain watch (R67, R77; log 19 for the fields those rules do not name). -/
def Watch.inactive : Watch :=
  { phase := .inactive, condition := .opened, remaining := 0, afterScans := 0, window := [], lastDrop := none,
    tail := [], blanking := 0, width := 0, threshold := 0, bothHooks := false }

/-- A STOPPED drain timer (section 4.1, R96). -/
def DrainTimer.idle : DrainTimer :=
  { state := .stopped, counter := 0, range := 0, compare := 0, hold := none, mode := none, inBlanking := false,
    timedPending := false, sensed := none }

/-- A bath channel as restart leaves it (R118). -/
def Channel.restarted : Channel := { health := .good, invalidRun := 0, validRun := 0 }

/-- The bath scanner as restart leaves it (R118 to R120). -/
def BathScanner.restarted : BathScanner :=
  { level := Channel.restarted, temp := Channel.restarted, levels := [], stored := none, age := 0 }

/-- An INVALID book with everything 0: a new part's book (R189), and the book that replaces a damaged one (R106). -/
def Book.blank : Book :=
  { mass := 0, state := .invalid, saturated := false, opening := 0, charged := 0, picked := 0, dross := 0, ash := 0,
    unallocated := 0, adjusted := 0 }

/-- The volatile part of the book as restart leaves it (section 5.1, R122). -/
def Reconcile.restarted : Reconcile :=
  { gauge := none, diff := none, since := none, pending := false, quiet := some 0, quietLevels := 0,
    judgedQuiet := false }

/-- A job slot that holds no job: FREE or DAMAGED (R135). -/
def JobSlot.vacant (st : JobState) : JobSlot :=
  { state := st, number := none, defaultClass := none, blackTotal := 0, pickupTotal := 0, drossShare := 0,
    dipCount := 0, droppedCount := 0, noMassCount := 0, openDips := 0, firstEntry := none, lastEntry := none,
    drossUnallocated := false }

/-- An empty notice queue (R185). -/
def NoticeQueue.empty : NoticeQueue := { items := [], overflow := false }

/-- An empty receive buffer; the check starts from 0xFF (R203). -/
def ReceiveBuffer.empty : ReceiveBuffer := { code := none, declared := 0, body := [], check := 0xFF }

/-- A port engine as restart leaves it (R201). -/
def Engine.restarted : Engine :=
  { transfer := .idle, rx := ReceiveBuffer.empty, slot := .empty, stretch := .none, tx := [], sent := [] }

/-- Every line at its held level: the outputs low and the call lines released (R193). -/
def Lines.down : Lines :=
  { permit := ⟨false, false⟩, wdraw := ⟨false, false⟩, feed := false, call := ⟨false, false, false, false⟩ }

/-- The account store of a new part (R189). -/
def StoreImage.newPart : StoreImage :=
  { setup := Setup.default true
    settings := Settings.default
    hooks := ⟨Calibration.newPart, Calibration.newPart⟩
    classes := List.replicate Config.classCount (ClassEntry.factory 0)
    jobs := List.replicate Config.jobCount (JobSlot.vacant .free)
    period := []
    book := Book.blank
    foul := []
    counter := 1
    live := []
    records := { items := [], lost := 0, offered := 0 } }

/-- The RESTART record of a restart that abandoned nothing and found no damage (R199). -/
def Record.cleanRestart : Record := { gap := none, body := .restart [] [] }

end Sys2Proof.Machine
end

