-- ==== Sys2Proof/Machine/Flags.lean ====
section
/-! DEFINITION. The entry flags and the withdraw demand: when each is taken, and their coding (section 2.10, R42,
R181, R210). -/

namespace Sys2Proof.Machine

/-- The flag set with NEW_SETTINGS taken when the class history count is 0 (R31). -/
def EntryFlags.atReserve (snapshot : ClassEntry) : EntryFlags :=
  { EntryFlags.empty with newSettings := snapshot.count == 0 }

/-- The flag set with the black capture's flags taken (R65, R66). -/
def EntryFlags.takeBlack (fl : EntryFlags) (noMass unsteady : Bool) : EntryFlags :=
  { fl with noMass := fl.noMass || noMass, unsteadyBlack := fl.unsteadyBlack || unsteady }

/-- The flag set after a WITHDRAW from LOWERING (R39). -/
def EntryFlags.takePartial (fl : EntryFlags) : EntryFlags := { fl with partialDip := true }

/-- The flag set after a WITHDRAW from IMMERSED with the time under given (R39). -/
def EntryFlags.takeShort (fl : EntryFlags) (under immMin : Nat) : EntryFlags :=
  { fl with shortDip := fl.shortDip || decide (under < immMin) }

/-- The flag set at an immersion limit expiry (R41). -/
def EntryFlags.takeOverdip (fl : EntryFlags) : EntryFlags := { fl with overdip := true }

/-- The flag set of an entry in flight at a stop (R166). -/
def EntryFlags.takeStop (fl : EntryFlags) : EntryFlags := { fl with stopDuring := true }

/-- The flag set when the expected hold may be saturated (R90). -/
def EntryFlags.takeHoldOver (fl : EntryFlags) (exceeded : Bool) : EntryFlags := { fl with holdOver := fl.holdOver || exceeded }

/-- The flag set at the accounting: NO_MASS for an absent drained mass with a hook in FAULT (R75, R76), NEGATIVE_PICKUP
for a negative difference (R78). -/
def EntryFlags.takeDrained (fl : EntryFlags) (noMass negative : Bool) : EntryFlags :=
  { fl with noMass := fl.noMass || noMass, negativePickup := fl.negativePickup || negative }

/-- The sixteen bits of the flag set (the flag table of R181). -/
def EntryFlags.bits (fl : EntryFlags) : Nat :=
  (if fl.newSettings then 1 else 0) + (if fl.unsteadyBlack then 2 else 0) + (if fl.noMass then 4 else 0) +
  (if fl.shortDip then 8 else 0) + (if fl.partialDip then 16 else 0) + (if fl.overdip then 32 else 0) +
  (if fl.stopDuring then 64 else 0) + (if fl.holdOver then 128 else 0) + (if fl.negativePickup then 256 else 0)

/-- The demand with the cause OVERDIP (R41). -/
def Demand.takeOverdip (d : Demand) : Demand := { d with overdip := true }

/-- The demand with the cause STOP (R166). -/
def Demand.takeStop (d : Demand) : Demand := { d with stop := true }

/-- Whether the demand is not empty (R170). -/
def Demand.raised (d : Demand) : Bool := d.overdip || d.stop

/-- The bits of the demand: bit 0 OVERDIP, bit 1 STOP (R210). -/
def Demand.bits (d : Demand) : Nat := (if d.overdip then 1 else 0) + (if d.stop then 2 else 0)

end Sys2Proof.Machine
end

