-- ==== Sys2Proof/Machine/State.lean ====
section
/-! DEFINITION. The state of the BG-620, its reasons to stop, and the state after reset. -/

namespace Sys2Proof.Machine

/-- Why the part stops with a fault. There is no such reason: the spec names no event that stops the part other than a
flush, which is a state (R193), and it answers every refusal with a status code (log 28). Raised by nobody; safe. -/
inductive Fault where
  deriving DecidableEq, Repr

/-- Why the model gives a command no meaning. -/
inductive Refusal where
  /-- A command whose meaning is not written yet. Raised by an arm of exec only; safe. No arm raises it now. -/
  | notModelled (mnemonic : String)
  deriving DecidableEq, Repr

/-- The state of the part (INVENTORY.md, State). -/
structure State where
  phase    : Phase
  inputs   : Inputs
  mode     : Mode
  lanes    : List Lane
  setup    : Setup
  settings : Settings
  cranes   : PerCrane CraneContext
  feed     : FeedContext
  counter  : Nat
  live     : List LiveEntry
  foul     : List FoulItem
  classes  : List ClassEntry
  jobs     : List JobSlot
  period   : List PeriodEntry
  hooks    : PerCrane Hook
  watches  : PerCrane Watch
  timers   : PerCrane DrainTimer
  bath     : BathScanner
  book     : Book
  recon    : Reconcile
  records  : RecordQueue
  notices  : PerPort NoticeQueue
  engines  : PerPort Engine
  /-- the store damage flags, by region code (R196) -/
  damage   : List Nat
  lines    : Lines
  store    : Store
  unsaved  : List DueStep
  scrubAt  : Nat
  flush    : Option FlushWork
  /-- the commands waiting, the next one first (log 1) -/
  pending  : List Instr
  deriving DecidableEq, Repr

/-- The machine right after reset: a new part (R189) after its first restart with the stop input high (R198, log 18).
The restart queued one RESTART record (R199) and, because the new book is INVALID, a BOOK_INVALID notice to the feed
station and to the office (R106), so the call lines of ports 2 and 3 are driven low (R211). -/
def State.reset : State :=
  { phase := .running
    inputs := { stopLow := false, supFailLow := false, resetAsserted := false, supplyLost := false }
    mode := .held
    lanes := freeLanes
    setup := Setup.default true
    settings := Settings.default
    cranes := ⟨CraneContext.idle none, CraneContext.idle none⟩
    feed := FeedContext.idle none
    counter := 1
    live := []
    foul := []
    classes := List.replicate Config.classCount (ClassEntry.factory 0)
    jobs := List.replicate Config.jobCount (JobSlot.vacant .free)
    period := []
    hooks := ⟨Hook.restarted Calibration.newPart, Hook.restarted Calibration.newPart⟩
    watches := ⟨Watch.inactive, Watch.inactive⟩
    timers := ⟨DrainTimer.idle, DrainTimer.idle⟩
    bath := BathScanner.restarted
    book := Book.blank
    recon := Reconcile.restarted
    records := { items := [Record.cleanRestart], lost := 0, offered := 1 }
    notices :=
      { craneA := NoticeQueue.empty
        craneB := NoticeQueue.empty
        feed := { items := [.bookInvalid], overflow := false }
        office := { items := [.bookInvalid], overflow := false } }
    engines := ⟨Engine.restarted, Engine.restarted, Engine.restarted, Engine.restarted⟩
    damage := []
    lines := { Lines.down with call := ⟨false, false, true, true⟩ }
    store :=
      { image := { StoreImage.newPart with records := { items := [Record.cleanRestart], lost := 0, offered := 1 } }
        flips := [] }
    unsaved := []
    scrubAt := 0
    flush := none
    pending := [] }

end Sys2Proof.Machine
end

