-- ==== Sys2Proof/Machine/Ops.lean ====
section
/-! DEFINITION. The named operations over the shared state: queues, lanes, contexts, entry numbers, stillness, lines,
the passing of time, and the reply of an owning rule. -/

namespace Sys2Proof.Machine

/-- What a step of the part answers: the spec's events always leave a next state (log 28). -/
abbrev Outcome := Host.Outcome State Fault Refusal

/-! ### Records and notices -/

/-- A record joins the tail with the gap of a positive lost count, or is counted into the lost count when the queue is
full (R178). -/
def RecordQueue.push (q : RecordQueue) (b : RecordBody) : RecordQueue :=
  if q.items.length < Config.recordRoom then
    { items := q.items ++ [{ gap := if q.lost = 0 then none else some q.lost, body := b }], lost := 0
      offered := q.offered + 1 }
  else
    { q with lost := min (q.lost + 1) Config.max16, offered := q.offered + 1 }

/-- A notice joins the tail, or sets the overflow flag when the queue is full (R185). -/
def NoticeQueue.push (q : NoticeQueue) (n : Notice) : NoticeQueue :=
  if q.items.length < Config.noticeRoom then { q with items := q.items ++ [n] } else { q with overflow := true }

/-- The state with a record queued (R178). -/
def State.queueRecord (s : State) (b : RecordBody) : State := { s with records := s.records.push b }

/-- The state with a notice queued to one port (R185). -/
def State.notify (s : State) (p : Port) (n : Notice) : State :=
  { s with notices := s.notices.set p ((s.notices.get p).push n) }

/-- The state with one notice queued to each of the four ports, each queue judging its own room (R185). -/
def State.notifyAll (s : State) (n : Notice) : State :=
  (((s.notify .craneA n).notify .craneB n).notify .feed n).notify .office n

/-- The state with a notice queued to crane A and crane B for a tandem entry, else to one crane (R53). -/
def State.notifyEntry (s : State) (c : Crane) (tandem : Bool) (n : Notice) : State :=
  if tandem then (s.notify .craneA n).notify .craneB n else s.notify c.port n

/-! ### Contexts -/

/-- The state with one crane's context replaced. -/
def State.setCrane (s : State) (c : Crane) (x : CraneContext) : State := { s with cranes := s.cranes.set c x }

/-- Whether a context leads a tandem entry (R26, R52). -/
def CraneContext.leads (x : CraneContext) : Bool := x.link == .lead

/-- The crane or cranes that a record of a crane's entry names (R53, R181). -/
def cranesOf (c : Crane) (tandem : Bool) : Cranes :=
  if tandem then .both else match c with
    | .craneA => .craneA
    | .craneB => .craneB

/-- The contexts that hold an entry, as the live-entry list names them (R197). -/
def holdersOf (c : Crane) (tandem : Bool) : Holders :=
  if tandem then .both else match c with
    | .craneA => .craneA
    | .craneB => .craneB

/-- The holder of the lanes of a crane's entry (R9, R10). -/
def holderOf (c : Crane) (tandem : Bool) : Holder :=
  if tandem then .tandem else match c with
    | .craneA => .craneA
    | .craneB => .craneB

/-- A crane's context, and crane A's and crane B's together for a tandem entry, return to IDLE with a lapse mark (R26). -/
def State.idleCranes (s : State) (c : Crane) (tandem : Bool) (mark : Option Nat) : State :=
  if tandem then { s with cranes := ⟨CraneContext.idle mark, CraneContext.idle mark⟩ }
  else s.setCrane c (CraneContext.idle mark)

/-! ### Lanes (chapter 1) -/

/-- Lane `i` lies in [f, l]. -/
def Span.holds (sp : Span) (i : Nat) : Bool := decide (sp.f ≤ i) && decide (i ≤ sp.l)

/-- The lanes with every lane of a span given a holder and an entry number (R9, R13). -/
def takeSpan (lanes : List Lane) (sp : Span) (h : Holder) (entry : Nat) : List Lane :=
  lanes.zipIdx.map fun p => if sp.holds p.2 then { holder := h, entry := some entry } else p.1

/-- The lanes with every lane that carries an entry number made FREE (R15, R18, R21). -/
def freeEntry (lanes : List Lane) (entry : Nat) : List Lane :=
  lanes.map fun ln => if ln.entry = some entry then Lane.free else ln

/-- The lanes with every lane that carries an entry number made FOUL, keeping the number (R22). -/
def foulEntry (lanes : List Lane) (entry : Nat) : List Lane :=
  lanes.map fun ln => if ln.entry = some entry then { holder := .foul, entry := some entry } else ln

/-- The lanes with every FOUL lane of a number made FREE (R23). -/
def clearFoulLanes (lanes : List Lane) (entry : Nat) : List Lane :=
  lanes.map fun ln => if ln.holder = .foul ∧ ln.entry = some entry then Lane.free else ln

/-- Every lane of a span is FREE (R7). -/
def spanFree (lanes : List Lane) (sp : Span) : Bool :=
  lanes.zipIdx.all fun p => !sp.holds p.2 || p.1.holder == .free

/-! ### Entry numbers and the live-entry list (R28, R197) -/

/-- The number after `n`, from 65,535 on to 1 (above 65,535: log 32). -/
def nextNumber (n : Nat) : Nat := if n = Config.max16 then 1 else n + 1

/-- The first number from `n` on that `used` does not hold, at most `fuel` steps on. -/
def firstUnused (used : List Nat) : Nat → Nat → Nat
  | 0, n => n
  | fuel + 1, n => if used.contains n then firstUnused used fuel (nextNumber n) else n

/-- The numbers carried by a live entry or by a FOUL lane. -/
def State.usedNumbers (s : State) : List Nat :=
  s.cranes.craneA.entry.toList ++ s.cranes.craneB.entry.toList ++ s.feed.entry.toList ++
    (s.lanes.filter (fun ln => ln.holder == .foul)).filterMap (fun ln => ln.entry)

/-- The entry number that the next admission takes (R28). A counter that a misdecoded word has left at 0 or above 65,535 is taken as
it stands (log 32). -/
def State.issued (s : State) : Nat := firstUnused s.usedNumbers s.usedNumbers.length s.counter

/-- The entry number leaves the live-entry list (R197). -/
def State.dropLive (s : State) (entry : Nat) : State :=
  { s with live := s.live.filter fun e => e.entry != entry }

/-! ### Bath temperature (R120, R168) -/

/-- The temperature is known: stored, not older than 60 bath scans, and the channel GOOD. -/
def State.tempKnown (s : State) : Bool :=
  s.bath.stored.isSome && decide (s.bath.age ≤ 60) && s.bath.temp.health == .good

/-- The temperature is OK: known and within the window, both bounds included. -/
def State.tempOk (s : State) : Bool :=
  s.tempKnown && (match s.bath.stored with
    | some t => decide (s.settings.tempLow ≤ t) && decide (t ≤ s.settings.tempHigh)
    | none => false)

/-! ### Stillness (R122) -/

/-- A crane context in this state keeps the kettle from being still. -/
def EntryState.stirs : EntryState → Bool
  | .lowering | .immersed | .withdrawing | .turning | .readySecond | .draining => true
  | .idle | .reserved | .drained | .linked => false

/-- The kettle is still. -/
def State.still (s : State) : Bool :=
  !s.cranes.craneA.state.stirs && !s.cranes.craneB.state.stirs && !s.feed.reserved

/-- What a step from `old` does to the quiet state: the quiet timer becomes 0 when the kettle becomes still; when it
stops being still, the quiet timer is absent, the levels since quiet began are 0, the judgement ends (R122, R123) and
reconcile pending becomes no (R123, R130, log 27). -/
def State.judgeStill (old new : State) : State :=
  if old.still && !new.still then
    { new with recon := { new.recon with quiet := none, quietLevels := 0, judgedQuiet := false, pending := false } }
  else if !old.still && new.still then
    { new with recon := { new.recon with quiet := some 0 } }
  else new

/-! ### Output lines (R134, R169, R170, R211) -/

/-- The context state of a crane is one from which lowering is its next step, whatever the mode and temperature (R169). -/
def State.mayLower (s : State) (c : Crane) : Bool :=
  match (s.cranes.get c).state with
  | .reserved => (s.cranes.get c).link == .alone ||
      ((s.cranes.get c).link == .lead && (s.cranes.get c).join == some .joined)
  | .readySecond => true
  | .linked => (s.cranes.craneA.state == .reserved && s.cranes.craneA.join == some .joined) ||
      s.cranes.craneA.state == .readySecond
  | _ => false

/-- The level of a crane's lowering-permit line while the part runs (R169). -/
def State.permitLevel (s : State) (c : Crane) : Bool := s.mode == .run && s.tempOk && s.mayLower c

/-- The withdraw demand of the entry that a crane works: the lead's for crane B while LINKED (R170). -/
def State.demandOf (s : State) (c : Crane) : Demand :=
  if (s.cranes.get c).state = .linked then s.cranes.craneA.demand else (s.cranes.get c).demand

/-- The level of a port's call line while the part runs: driven low while a queue holds something (R211). -/
def State.callLevel (s : State) (p : Port) : Bool :=
  !(s.notices.get p).items.isEmpty || (p == .office && !s.records.items.isEmpty)

/-- The levels that R169, R170 and R211 give the state; the feed-demand line is judged by its own rule (R134). -/
def State.lineLevels (s : State) : Lines :=
  { permit := ⟨s.permitLevel .craneA, s.permitLevel .craneB⟩
    wdraw := ⟨(s.demandOf .craneA).raised, (s.demandOf .craneB).raised⟩
    feed := s.lines.feed
    call := ⟨s.callLevel .craneA, s.callLevel .craneB, s.callLevel .feed, s.callLevel .office⟩ }

/-- The state with every line at the level its rule gives. -/
def State.judgeLines (s : State) : State := { s with lines := s.lineLevels }

/-- The level the feed-demand line takes when it is judged (R134). -/
def State.feedLevel (s : State) : Bool := s.book.state != .invalid && decide (s.book.mass < s.settings.feedLow)

/-- The feed-demand line is judged: a FEED_LOW notice giving M is queued each time it goes from low to high (R134). -/
def State.judgeFeed (s : State) : State :=
  if s.feedLevel && !s.lines.feed then
    { s with lines := { s.lines with feed := true } }.notify .feed (.feedLow s.book.mass)
  else { s with lines := { s.lines with feed := s.feedLevel } }

/-! ### Time (log 3) -/

/-- One tenth of a second more on an immersion timer that runs, saturating at 65,535 (R40), and one less on a lapse
timer that runs (R14). -/
def CraneContext.pass (x : CraneContext) : CraneContext :=
  { x with immTimer := if x.immRunning then min (x.immTimer + 1) Config.max16 else x.immTimer
           lapse := x.lapse.map fun t => t - 1 }

/-- The quiet timer saturates at 65,535 s (R122) and the time since the last reconcile at 65,535 min (R124). -/
def Reconcile.pass (r : Reconcile) : Reconcile :=
  { r with quiet := r.quiet.map fun t => min (t + 1) (Config.max16 * 10 + 9)
           since := r.since.map fun t => min (t + 1) (Config.max16 * 600 + 599) }

/-- The 100 ms between a load scan and the one before it have passed (R56). -/
def State.pass (s : State) : State :=
  { s with cranes := ⟨s.cranes.craneA.pass, s.cranes.craneB.pass⟩
           feed := { s.feed with lapse := s.feed.lapse.map fun t => t - 1 }
           recon := s.recon.pass }

/-! ### Replies -/

/-- What the owning rule of a request answers: a refusal, which changes nothing but the answer slot (R205), the answer
of a request that only reads, or the answer and the new state of a request that was taken. -/
inductive Reply where
  | refused (status : Status)
  | told (answer : List Byte)
  | done (answer : List Byte) (new : State)
  deriving DecidableEq, Repr

end Sys2Proof.Machine
end

