-- ==== Sys2Proof/Machine/StoreWrites.lean ====
section
/-! DEFINITION. Writing through to the account store: which items a step changed, when their writes are due, and the
writes themselves (section 9.2). -/

namespace Sys2Proof.Machine

/-- The working copies of every item of the store (section 9.1). -/
def State.image (s : State) : StoreImage :=
  { setup := s.setup, settings := s.settings, hooks := ⟨s.hooks.craneA.cal, s.hooks.craneB.cal⟩, classes := s.classes,
    jobs := s.jobs, period := s.period, book := s.book, foul := s.foul, counter := s.counter, live := s.live,
    records := s.records }

/-- A setting by its number in the table of section 7.5. -/
def Settings.get (t : Settings) (n : Nat) : Int :=
  match n with
  | 1 => t.lapse
  | 2 => t.steadyCount
  | 3 => t.band
  | 4 => t.holdAge
  | 5 => t.quietTime
  | 6 => t.interval
  | 7 => t.tolerance
  | 8 => t.alarm
  | 9 => t.trimGain
  | 10 => t.maxTrim
  | 11 => t.areaDensity
  | 12 => t.floorLevel
  | 13 => t.tempLow
  | 14 => t.tempHigh
  | 15 => t.feedLow
  | 16 => t.drossFraction
  | 17 => t.ashFraction
  | 18 => t.levelZero
  | 19 => t.levelSpan
  | 20 => t.tempZero
  | 21 => t.tempSpan
  | _ => 0

/-- The settings with the setting of a number given a value. -/
def Settings.put (t : Settings) (n : Nat) (v : Int) : Settings :=
  match n with
  | 1 => { t with lapse := v.toNat }
  | 2 => { t with steadyCount := v.toNat }
  | 3 => { t with band := v.toNat }
  | 4 => { t with holdAge := v.toNat }
  | 5 => { t with quietTime := v.toNat }
  | 6 => { t with interval := v.toNat }
  | 7 => { t with tolerance := v.toNat }
  | 8 => { t with alarm := v.toNat }
  | 9 => { t with trimGain := v.toNat }
  | 10 => { t with maxTrim := v.toNat }
  | 11 => { t with areaDensity := v.toNat }
  | 12 => { t with floorLevel := v.toNat }
  | 13 => { t with tempLow := v.toNat }
  | 14 => { t with tempHigh := v.toNat }
  | 15 => { t with feedLow := v.toNat }
  | 16 => { t with drossFraction := v.toNat }
  | 17 => { t with ashFraction := v.toNat }
  | 18 => { t with levelZero := v }
  | 19 => { t with levelSpan := v.toNat }
  | 20 => { t with tempZero := v }
  | 21 => { t with tempSpan := v.toNat }
  | _ => t

/-- The numbers of the settings. -/
def settingNumbers : List Nat := (List.range Config.settingCount).map (· + 1)

/-- The edition word of a class, apart from its other fields (R29). -/
def ClassEntry.unedited (k : ClassEntry) : ClassEntry := { k with edition := 0 }

/-- One item of an image equal in two images. The lost count is written with every record that a step queues or counts, also where it
stands at its old value (R178), and the count of these records stands for its writes (log 12). -/
def sameItem (a b : StoreImage) : StoreKey → Bool
  | .setup => a.setup == b.setup
  | .setting n => a.settings.get n == b.settings.get n
  | .hook h => a.hooks.get h == b.hooks.get h
  | .classFields n => (a.classes[n]?).map ClassEntry.unedited == (b.classes[n]?).map ClassEntry.unedited
  | .classEdition n => (a.classes[n]?).map ClassEntry.edition == (b.classes[n]?).map ClassEntry.edition
  | .job n => a.jobs[n]? == b.jobs[n]?
  | .period => a.period == b.period
  | .book => a.book == b.book
  | .foul => a.foul == b.foul
  | .counter => a.counter == b.counter
  | .live => a.live == b.live
  | .lost => a.records.lost == b.records.lost && a.records.offered == b.records.offered
  | .records => a.records.items == b.records.items

/-- The items that a step writes first, in its order (R190): the counter of an admission (R9, R13); the FOUL item of a
DROPPED (R51); the book before the jobs (R46, R47); the job slots, in order of slot index, with their credits and shares,
before the period list (R147, R156). The spec gives the settings of one TUNE KETTLE no order, and those of one step that are
still to be written are written by setting number (R173, log 12). -/
def earlyKeys : List StoreKey :=
  ([.setup] : List StoreKey) ++ settingNumbers.map StoreKey.setting ++
    ([.hook .craneA, .hook .craneB, .counter, .foul, .book] : List StoreKey) ++
    (List.range Config.jobCount).map StoreKey.job ++ ([.period] : List StoreKey)

/-- The items that a step writes after the jobs it closed (R190): the class and the records of an accounting (R46, R47), the
lost count after the record it goes with (R178, log 12), and the live-entry list (R9, R13, R49, R51). -/
def lateKeys : List StoreKey :=
  (List.range Config.classCount).map StoreKey.classFields ++ (List.range Config.classCount).map StoreKey.classEdition ++
    ([.records, .lost, .live] : List StoreKey)

/-- Every item of the store (section 9.1), in the order in which the items of one step are written. Where no rule gives an order it
is the model's choice (log 12): setting words by number, job slots by index, a class's fields before its edition, the lost
count after the records. -/
def storeKeys : List StoreKey := earlyKeys ++ lateKeys

/-- A step from one image to another writes an item: it changed the item, or the item is the list of records and it queued or counted
a record. The lost count and the list are then written together, whichever of them the step changed, so that no record that an
earlier step queued, and has still to write, can come to stand later than the lost count that follows it (R178, log 12). -/
def writesItem (a b : StoreImage) (k : StoreKey) : Bool :=
  !sameItem a b k || (k == .records && a.records.offered != b.records.offered)

/-- The items among those given that a step from one image to another writes. -/
def differing (keys : List StoreKey) (a b : StoreImage) : List StoreKey :=
  if a = b then [] else keys.filter (writesItem a b)

/-- The items that a step from one image to another writes. -/
def changedKeys (a b : StoreImage) : List StoreKey := differing storeKeys a b

/-- The working copies that a step leaves, but for the jobs it closed, which are still in the state in which it found them. -/
def StoreImage.unclosed (new old : StoreImage) : StoreImage :=
  { new with jobs := new.jobs.zipIdx.map fun p =>
      if p.1.state = .closed then { p.1 with state := ((old.jobs[p.2]?).map JobSlot.state).getD .closed } else p.1 }

/-- The writes of a step from the working copies `old` to `new`, in the order of the rule that owns it (R190): its job slots and
its period list before the jobs that it closes, since a job closes at the end of its credit (R147) and after the allocation
has emptied the list (R156, R158). -/
def stepWrites (old new : StoreImage) : List StepWrites :=
  let before := new.unclosed old
  ([{ image := before, keys := differing earlyKeys old before },
    { image := new, keys := differing earlyKeys before new ++ differing lateKeys old new }] : List StepWrites).filter
      fun w => !w.keys.isEmpty

/-- An image with one item taken from another. -/
def StoreImage.putItem (dst src : StoreImage) : StoreKey → StoreImage
  | .setup => { dst with setup := src.setup }
  | .setting n => { dst with settings := dst.settings.put n (src.settings.get n) }
  | .hook h => { dst with hooks := dst.hooks.set h (src.hooks.get h) }
  | .classFields n =>
    match dst.classes[n]?, src.classes[n]? with
    | some d, some k => { dst with classes := dst.classes.set n { k with edition := d.edition } }
    | _, _ => dst
  | .classEdition n =>
    match dst.classes[n]?, src.classes[n]? with
    | some d, some k => { dst with classes := dst.classes.set n { d with edition := k.edition } }
    | _, _ => dst
  | .job n =>
    match src.jobs[n]? with
    | some j => { dst with jobs := dst.jobs.set n j }
    | none => dst
  | .period => { dst with period := src.period }
  | .book => { dst with book := src.book }
  | .foul => { dst with foul := src.foul }
  | .counter => { dst with counter := src.counter }
  | .live => { dst with live := src.live }
  | .lost => { dst with records := { dst.records with lost := src.records.lost, offered := src.records.offered } }
  | .records => { dst with records := { dst.records with items := src.records.items } }

/-- How many records left at the head when `old` became `new`: the least number after which what remains of `old`
stands at the head of `new` (records leave at the head and join at the tail, R177). With equal records in the queue more than
one number can fit; the spec does not say which stored record then left, and the least is taken (log 13). -/
def headTaken (old new : List Record) : Nat :=
  match old with
  | [] => 0
  | _ :: rest => if old.isPrefixOf new then 0 else headTaken rest new + 1

/-- The words that still do not stand as written when an item is written: those of other items, and, of a list of items, those
of the list's items that stay, at their new positions (log 13). -/
def flipsAfterWrite (old src : StoreImage) (key : StoreKey) (flips : List BadWord) : List BadWord :=
  match key with
  | .records =>
    let k := headTaken old.records.items src.records.items
    (flips.filter fun u => u.key != .records || decide (k ≤ u.pos && u.pos < old.records.items.length)).map fun u =>
      if u.key = .records then { u with pos := u.pos - k } else u
  | .foul =>
    flips.filterMap fun u =>
      if u.key = .foul then
        match old.foul[u.pos]? with
        | some it => if src.foul.contains it then some { u with pos := src.foul.idxOf it } else none
        | none => none
      else some u
  | _ => flips.filter fun u => u.key != key

/-- One item of the store written with its working copy: every word of it sound (R190, log 13). -/
def Store.write (st : Store) (src : StoreImage) (key : StoreKey) : Store :=
  { image := st.image.putItem src key, flips := flipsAfterWrite st.image src key st.flips }

/-- Several items of the store written with their working copies. -/
def Store.writeAll (st : Store) (src : StoreImage) (keys : List StoreKey) : Store :=
  keys.foldl (fun st k => st.write src k) st

/-- Writes are made one after another. -/
def Store.make (st : Store) (w : StepWrites) : Store := st.writeAll w.image w.keys

/-- The writes of one step are made (R190). -/
def Store.makeStep (st : Store) (ws : List StepWrites) : Store := ws.foldl Store.make st

/-- The items that a step has still to write. -/
def DueStep.keys (w : DueStep) : List StoreKey := w.writes.flatMap StepWrites.keys

/-- Writes without those of items that have been written with a later value. -/
def withoutWritten (ws : List StepWrites) (written : List StoreKey) : List StepWrites :=
  (ws.map fun w => { w with keys := w.keys.filter fun k => !written.contains k }).filter fun w => !w.keys.isEmpty

/-- The steps still due once items have been written with a later value: they no longer write those items, whose store copy
holds the value of the later write (R190); a step with no item left is done. -/
def stillDue (steps : List DueStep) (written : List StoreKey) : List DueStep :=
  (steps.map fun w => { w with writes := withoutWritten w.writes written }).filter fun w => !w.writes.isEmpty

/-- Items are written now with their working copies. -/
def State.writeNow (s : State) (keys : List StoreKey) : State :=
  { s with store := s.store.writeAll s.image keys, unsaved := stillDue s.unsaved keys }

/-- A step is due at a deadline: its own, and for a lapse any (R190). -/
def DueStep.dueAt (w : DueStep) (d : Deadline) : Bool := w.due == d || w.due == .lapse

/-- The steps that stay when those due at a deadline are written: each without the items that a later one of these wrote. -/
def laterSteps (d : Deadline) : List DueStep → List DueStep
  | [] => []
  | w :: ws =>
    if w.dueAt d then laterSteps d ws
    else stillDue [w] ((ws.filter fun v => v.dueAt d).flatMap DueStep.keys) ++ laterSteps d ws

/-- The steps due at a deadline, and those of a lapse, make their writes in their order (R190). -/
def State.writeDue (s : State) (d : Deadline) : State :=
  { s with store := (s.unsaved.filter fun w => w.dueAt d).foldl (fun st w => st.makeStep w.writes) s.store
           unsaved := laterSteps d s.unsaved }

/-- The items that a request writes over steps with `due` still to write: with the list of records also the lost count, where one
of these steps has that still to write, since the list then holds that step's record (R178, log 12). -/
def withDueLost (due keys : List StoreKey) : List StoreKey :=
  if .records ∈ keys ∧ .lost ∈ due ∧ .lost ∉ keys then keys ++ [.lost] else keys

/-- The items a request changed are written before its answer is READY, and the writes of a lapse before the request
takes effect (R190). -/
def State.writeThrough (old new : State) : State :=
  let s := new.writeDue .lapse
  s.writeNow (withDueLost (s.unsaved.flatMap DueStep.keys) (changedKeys old.image new.image))

/-- The items an event changed become due at a deadline (R190). -/
def State.writeLater (old new : State) (d : Deadline) : State :=
  let ws := stepWrites old.image new.image
  { new with unsaved := if ws.isEmpty then new.unsaved else new.unsaved ++ [{ due := d, writes := ws }] }

/-- The end of an event's step: the quiet state, the writes the step makes due, and the lines (R122, R190, R169). -/
def State.endEvent (old new : State) (d : Deadline) : State :=
  (old.writeLater (old.judgeStill new) d).judgeLines

/-- The end of an accepted request's step: the quiet state, the writes, and the lines (R122, R190, R169). -/
def State.endRequest (old new : State) : State := (old.writeThrough (old.judgeStill new)).judgeLines

end Sys2Proof.Machine
end

