-- ==== Sys2Proof/Machine/HookWeigher.lean ====
section
/-! DEFINITION. The hook weigher: samples, channel health, steadiness, black mass, the drain watches, drained mass, and
the hook requests (chapter 3). -/

namespace Sys2Proof.Machine

/-! ### Samples (R57, R58) -/

/-- The gross mass of a raw count: (raw - zero) × span / 65,536, rounded to nearest with ties away from zero (R57). -/
def Calibration.mass (cal : Calibration) (raw : Int) : Int := roundDiv ((raw - cal.zero) * cal.span) 65536

/-- The valid mass range of a sample (R58). -/
def massInRange (m : Int) : Bool := decide (-50000 ≤ m) && decide (m ≤ 600000)

/-- The sample of a reading: OVER when the overload mark is set or the mass lies outside the range (R58). -/
def Calibration.sample (cal : Calibration) (r : Reading) : Sample :=
  let m := cal.mass r.raw.toInt
  { raw := r.raw.toInt, mass := if r.overload || !massInRange m then none else some m }

/-! ### Health, ring, steadiness, held steady mean (R59, R61 to R63) -/

/-- The health after a scan, with the runs already updated (R59). -/
def Hook.nextHealth (h : Hook) (overRun goodRun : Nat) : Health :=
  match h.health with
  | .good => if 5 ≤ overRun then .fault else .good
  | .fault => if 20 ≤ goodRun && h.cal.calibrated then .good else .fault

/-- A sample at the newest end of the ring, the oldest leaving a full ring (R61). -/
def pushSample (ring : List Sample) (x : Sample) : List Sample :=
  let xs := ring ++ [x]
  xs.drop (xs.length - Config.ringRoom)

/-- The newest `n` samples of a ring. -/
def newest (ring : List Sample) (n : Nat) : List Sample := ring.drop (ring.length - n)

/-- The spread of masses: the greatest less the least (R62). -/
def spread : List Int → Int
  | [] => 0
  | m :: ms => ms.foldl max m - ms.foldl min m

/-- The steady mean after a scan, present exactly when the hook is steady (R62). With a steady count S of 0, which only a misdecoded
word can give, a hook is not steady (log 32). -/
def steadyMean (health : Health) (ring : List Sample) (t : Settings) : Option Int :=
  let last := newest ring t.steadyCount
  let masses := last.filterMap Sample.mass
  if health = .good ∧ t.steadyCount ≤ ring.length ∧ masses.length = last.length ∧ spread masses ≤ t.band then
    meanOf masses
  else none

/-- One hook's stages of a load scan: sample, health, ring, steadiness, held steady mean (R56). -/
def Hook.scan (h : Hook) (t : Settings) (r : Reading) : Hook :=
  let x := h.cal.sample r
  let overs := if x.mass.isNone then min (h.overRun + 1) Config.max16 else 0
  let goods := if x.mass.isSome then min (h.goodRun + 1) Config.max16 else 0
  let health := h.nextHealth overs goods
  let ring := pushSample h.ring x
  let steady := steadyMean health ring t
  let heldBefore := if h.health = .good ∧ health = .fault then none else h.held
  { cal := h.cal
    health := health
    overRun := overs
    goodRun := goods
    ring := ring
    steady := steady
    held := if steady.isSome then steady else heldBefore
    heldAge := if steady.isSome then 0
      else if heldBefore.isSome then min (h.heldAge + 1) Config.max16 else 0 }

/-- The hook enters FAULT at a scan (R59). -/
def faultedAt (old new : Hook) : Bool := old.health == .good && new.health == .fault

/-- The hook with its ring emptied: not steady, no held steady mean (R61, R63). -/
def Hook.emptied (h : Hook) : Hook := { h with ring := [], steady := none, held := none, heldAge := 0 }

/-! ### Black mass (R65, R66) -/

/-- The black mass of one hook as the last scan left it (R65). -/
def Hook.black (h : Hook) (t : Settings) : Option Int :=
  if h.health = .fault then none
  else if h.steady.isSome then h.steady
  else if h.heldAge ≤ t.holdAge then h.held else none

/-- The hook's black mass is absent for a channel in FAULT: NO_MASS (R65). -/
def Hook.blackNoMass (h : Hook) : Bool := h.health == .fault

/-- The hook's black mass is absent for an unsteady hook: UNSTEADY_BLACK (R65). -/
def Hook.blackUnsteady (h : Hook) (t : Settings) : Bool := h.health == .good && (h.black t).isNone

/-- The sum of two masses when both are present. -/
def addMasses : Option Int → Option Int → Option Int
  | some a, some b => some (a + b)
  | _, _ => none

/-- The hooks of a crane's entry: both for a tandem entry (R56). -/
def State.hooksOf (s : State) (c : Crane) (tandem : Bool) : List Hook :=
  if tandem then [s.hooks.craneA, s.hooks.craneB] else [s.hooks.get c]

/-- The black mass of an entry: the writing crane's hook's, or the sum of both hooks' (R65, R66). -/
def State.blackMass (s : State) (c : Crane) (tandem : Bool) : Option Int :=
  if tandem then addMasses (s.hooks.craneA.black s.settings) (s.hooks.craneB.black s.settings)
  else (s.hooks.get c).black s.settings

/-! ### The drain watch (section 3.6) -/

/-- A watch started at CLEAR with B, W and T from the snapshot (R67). -/
def Watch.start (k : ClassEntry) (hooks : List Hook) (tandem : Bool) : Watch :=
  { phase := if k.blanking = 0 then .after else .blanking
    condition := if hooks.all (fun h => h.health == .good) then .opened else .shut
    remaining := k.blanking
    afterScans := 0
    window := []
    lastDrop := none
    tail := []
    blanking := k.blanking
    width := k.window
    threshold := k.threshold
    bothHooks := tandem }

/-- The newest sample's mass of a hook whose channel is GOOD: its usable value (R69). -/
def Hook.usable (h : Hook) : Option Int :=
  if h.health = .good then (h.ring.getLast?).bind Sample.mass else none

/-- The newest sample of a hook is OVER (R58). -/
def Hook.newestOver (h : Hook) : Bool :=
  match h.ring.getLast? with
  | some x => x.mass.isNone
  | none => false

/-- The scan's sample value of a watch when it is usable: the hook's, or the sum of both hooks' (R69, R73). -/
def scanValue (hooks : List Hook) : Option Int :=
  match hooks with
  | [h] => h.usable
  | [h, k] => addMasses h.usable k.usable
  | _ => none

/-- A value at the newest end of the tail, the oldest leaving when it would exceed W/2 (R69). -/
def pushTail (tail : List TailValue) (v : TailValue) (room : Nat) : List TailValue :=
  let vs := tail ++ [v]
  vs.drop (vs.length - room)

/-- A value at the newest end of the window, the oldest leaving when it would exceed W (R70). -/
def pushWindow (window : List Int) (v : Int) (room : Nat) : List Int :=
  let vs := window ++ [v]
  vs.drop (vs.length - room)

/-- The newer mean of a full window (R71). Of an odd number of values, which only a misdecoded or torn W can give, the middle one
counts in neither mean (log 32). -/
def newerMean (window : List Int) (width : Nat) : Int := roundDiv (window.drop (width - width / 2)).sum (width / 2)

/-- The older mean of a full window (R71). -/
def olderMean (window : List Int) (width : Nat) : Int := roundDiv (window.take (width / 2)).sum (width / 2)

/-- A watch advanced by a scan in BLANKING (R68, R69). -/
def Watch.blankingScan (w : Watch) (value : Option Int) : Watch :=
  { w with remaining := w.remaining - 1
           phase := if w.remaining ≤ 1 then .after else .blanking
           tail := match value with
             | some m => pushTail w.tail { mass := m, inBlanking := true } (w.width / 2)
             | none => w.tail }

/-- The window after a scan in AFTER (R70). -/
def Watch.nextWindow (w : Watch) (value : Option Int) (wasOver : Bool) : List Int :=
  if w.condition = .shut then w.window
  else if wasOver then []
  else match value with
    | some m => pushWindow w.window m w.width
    | none => w.window

/-- The drop at a scan after which an OPEN window holds W values (R71). -/
def Watch.drop (w : Watch) (window : List Int) : Option Int :=
  if w.condition = .opened ∧ window.length = w.width then some (olderMean window w.width - newerMean window w.width)
  else none

/-- A watch advanced by a scan in AFTER (R69 to R71). -/
def Watch.afterScan (w : Watch) (value : Option Int) (wasOver : Bool) : Watch :=
  let window := w.nextWindow value wasOver
  { w with afterScans := min (w.afterScans + 1) Config.max16
           window := window
           lastDrop := match w.drop window with
             | some d => some d
             | none => if w.condition = .opened ∧ wasOver = true then none else w.lastDrop
           tail := match value with
             | some m => pushTail w.tail { mass := m, inBlanking := false } (w.width / 2)
             | none => w.tail }

/-- The newer mean that a scan in AFTER reports with the sensed condition, if the condition holds at it (R71). -/
def Watch.sensedAt (w : Watch) (value : Option Int) (wasOver : Bool) : Option Int :=
  match w.drop (w.nextWindow value wasOver) with
  | some d => if d ≤ w.threshold then some (newerMean (w.nextWindow value wasOver) w.width) else none
  | none => none

/-- A watch shut by a hook fault: its window emptied and the last drop absent; an INACTIVE or shut watch is not changed
(R72). -/
def Watch.shutIt (w : Watch) : Watch :=
  if w.phase = .inactive ∨ w.condition = .shut then w
  else { w with condition := .shut, window := [], lastDrop := none }

/-- Whether a watch uses a crane's hook: its own crane's, or either for a tandem watch (R67). -/
def Watch.uses (w : Watch) (owner hook : Crane) : Bool := decide (owner = hook) || w.bothHooks

/-! ### Drained mass (section 3.7) -/

/-- The drained mass for the causes TIMED and SATURATED (R75). -/
def timedMass (w : Watch) (hooks : List Hook) : Option Int :=
  if hooks.all (fun h => h.steady.isSome) then some ((hooks.filterMap Hook.steady).sum)
  else meanOf ((w.tail.filter fun v => !v.inBlanking).map TailValue.mass)

/-- The drained mass for the cause EARLY_LEAVE (R76). -/
def tailMass (w : Watch) : Option Int := meanOf (w.tail.map TailValue.mass)

/-- The drained mass of an end cause; for SENSED the newer mean reported with it (R74 to R76). -/
def drainedMass (cause : EndCause) (reported : Option Int) (w : Watch) (hooks : List Hook) : Option Int :=
  match cause with
  | .sensed => reported
  | .timed => timedMass w hooks
  | .saturated => timedMass w hooks
  | .earlyLeave => tailMass w

/-- The difference of drained and black mass, when both are present (R78, R79). -/
def massDifference (black drained : Option Int) : Option Int :=
  match black, drained with
  | some b, some d => some (d - b)
  | _, _ => none

/-- A difference credited: a negative one as 0 (R78, R79). -/
def credited (diff : Option Int) : Option Int := diff.map fun d => max d 0

/-! ### Hook requests (section 3.9) -/

/-- The zero that ZERO HOOK sets: the mean of the raw counts of the newest S samples (R80). A TUNE KETTLE may have raised
S past the samples that were judged steady under the old S (R64). Where the ring has S samples, R80's mean takes the raw
counts of them all, those of OVER samples among them, though R58 has an OVER sample take no part in any mean (log 20). Where
the ring has fewer, the mean is not stated, and the zero is a free value (log 20). -/
def Hook.newZero (h : Hook) (steadyCount : Nat) : Int :=
  if steadyCount ≤ h.ring.length then roundDiv ((newest h.ring steadyCount).map Sample.raw).sum steadyCount
  else (Config.shortRingZero (h.ring.map Sample.raw) steadyCount).toInt

/-- ZERO HOOK of a crane's hook (R80): the hook's item is written whether or not its values change (R60). -/
def zeroHookRule (c : Crane) (s : State) : Reply :=
  let h := s.hooks.get c
  if (s.cranes.get c).state ≠ .idle then .refused .wrongState
  else if h.steady = none then .refused .hookUnsteady
  else
    let zero := h.newZero s.settings.steadyCount
    .done (leSigned 3 zero)
      (({ s with hooks := s.hooks.set c { h.emptied with cal := { h.cal with zero := zero } } }).writeNow [.hook c])

/-- A hook given a zero and a span: CALIBRATED, GOOD with both runs 0, its ring and held steady mean emptied (R81). -/
def Hook.recalibrated (h : Hook) (zero : Int) (span : Nat) : Hook :=
  { h.emptied with
    cal := { zero := zero, span := span, calibrated := true }
    health := .good
    overRun := 0
    goodRun := 0 }

/-- SET HOOK (R81): the hook's item is written whether or not its values change (R60). -/
def setHookRule (body : List Byte) (s : State) : Reply :=
  let a := SetHookArgs.read body
  match hookOfCode a.hook with
  | none => .refused .badValue
  | some c =>
    if a.span = 0 then .refused .badValue
    else if (s.cranes.get c).state ≠ .idle then .refused .wrongState
    else
      .done []
        (({ s with hooks := s.hooks.set c ((s.hooks.get c).recalibrated a.zero a.span) }).writeNow [.hook c])

end Sys2Proof.Machine
end

