-- ==== Sys2Proof/Machine/DrainTimer.lean ====
section
/-! DEFINITION. The drain timer: its start, its ticks, the expected hold, the timed test, the sensed capture and the
lesson to the class (chapter 4). -/

namespace Sys2Proof.Machine

/-- The duration of a drain: floor(counter × 2^e / 2) ds (R88). -/
def DrainTimer.duration (t : DrainTimer) : Nat := t.counter * 2 ^ t.range / 2

/-! ### The expected hold (section 4.2) -/

/-- The history value H chosen from a snapshot (R89). -/
def ClassEntry.chosen (k : ClassEntry) : Option Nat :=
  match k.basis with
  | .last => if k.last.isSome then k.last else k.prior
  | .prior => if k.prior.isSome then k.prior else k.last

/-- The hold before it is limited: floor(f × H / 32), or the initial hold where both history values are absent (R89,
R90). -/
def ClassEntry.rawHold (k : ClassEntry) : Nat :=
  match k.chosen with
  | some h => k.holdFactor * h / 32
  | none => k.initialHold

/-- The hold of a history value is above 65,535: it is limited, with HOLD_OVER (R90). For an initial hold R90 is passed over
(R89). -/
def ClassEntry.holdExceeds (k : ClassEntry) : Bool := k.chosen.isSome && decide (Config.max16 < k.rawHold)

/-- The expected hold: that of a history value at most 65,535 (R90), an initial hold as it stands (R89). An initial hold above
65,535, which only a misdecoded or torn class word can give, is not limited either and takes no HOLD_OVER (log 32). -/
def ClassEntry.expectedHold (k : ClassEntry) : Nat := if k.holdExceeds then Config.max16 else k.rawHold

/-- The compare of a hold at a range: ceil(hold × 2 / 2^e) (R91). -/
def compareOf (hold e : Nat) : Nat := ceilDiv (hold * 2) (2 ^ e)

/-- The timer started at CLEAR from the entry's snapshot (R84). -/
def DrainTimer.start (k : ClassEntry) : DrainTimer :=
  { state := .running
    counter := 0
    range := k.startRange
    compare := compareOf k.expectedHold k.startRange
    hold := some k.expectedHold
    mode := some k.drainMode
    inBlanking := decide (0 < k.blanking)
    timedPending := decide (compareOf k.expectedHold k.startRange = 0)
    sensed := none }

/-! ### Ticks (R85 to R87, R93) -/

/-- What a tick or an event does to a drain: the timer after it, and the cause with which the drain ends at it, if it
does. -/
structure TimerStep where
  timer : DrainTimer
  ends  : Option EndCause
  deriving DecidableEq, Repr

/-- The drain mode consults the compare (R93). -/
def DrainTimer.consults (t : DrainTimer) : Bool := t.mode == some .timed || t.mode == some .either

/-- The timed test (R93): with the compare met, the drain ends TIMED after blanking, and the end becomes pending during
it. While an end is pending the timer runs on (R93, R97), so the test then does nothing. -/
def DrainTimer.timedTest (t : DrainTimer) : TimerStep :=
  if t.consults && decide (t.compare ≤ t.counter) && !t.timedPending then
    if t.inBlanking then { timer := { t with timedPending := true }, ends := none }
    else { timer := t, ends := some .timed }
  else { timer := t, ends := none }

/-- A range-up: the range rises by 1, the counter becomes 512, the compare is halved and rounded up (R86). -/
def DrainTimer.rangeUp (t : DrainTimer) : DrainTimer :=
  { t with range := t.range + 1, counter := 512, compare := ceilDiv t.compare 2 }

/-- A saturated timer: the counter holds at 1023 (R87). -/
def DrainTimer.saturate (t : DrainTimer) : DrainTimer := { t with state := .saturated, counter := 1023 }

/-- A tick of a RUNNING timer: it counts, or makes a range-up, and then makes the timed test; at range 7 with the counter
at 1023 it saturates and ends the drain (R85 to R87). A range above 7, which only a misdecoded or torn start range can give,
is taken as 7 is (log 32). -/
def DrainTimer.tick (t : DrainTimer) : TimerStep :=
  if t.counter < 1023 then ({ t with counter := t.counter + 1 }).timedTest
  else if t.range < 7 then t.rangeUp.timedTest
  else { timer := t.saturate, ends := some .saturated }

/-- The timer brought to the range at which its counter can reach the compare: range-ups while the compare is above 1023
and the range below 7 (R86, R91). -/
def DrainTimer.climb : Nat → DrainTimer → DrainTimer
  | 0, t => t
  | fuel + 1, t => if 1023 < t.compare ∧ t.range < 7 then climb fuel t.rangeUp else t

/-- The timer brought to the compare (log 4): its counter not less than the compare where a counter can reach it. -/
def DrainTimer.reachCompare (t : DrainTimer) : DrainTimer :=
  if t.compare ≤ t.counter then t
  else
    let u := t.climb 7
    if u.compare ≤ 1023 then { u with counter := max u.counter u.compare } else t

/-! ### Scan reports (R92 to R95) -/

/-- What a scan report does (R93, R94): the first sensed condition is captured, and ends the drain in SENSED and EITHER
mode; else the first load scan after blanking ends it with a pending timed end. -/
def DrainTimer.report (t : DrainTimer) (afterScans : Nat) (sensed : Bool) : TimerStep :=
  let u := if sensed && t.sensed.isNone then { t with sensed := some t.duration } else t
  if sensed && t.sensed.isNone && (t.mode == some .sensed || t.mode == some .either) then
    { timer := u, ends := some .sensed }
  else if t.timedPending && t.consults && afterScans == 1 then { timer := u, ends := some .timed }
  else { timer := u, ends := none }

/-! ### Teaching the class (section 4.6) -/

/-- The least range from `e` on, at most `fuel` steps on, at which a drain of a sensed duration needs no range-up
(R100). -/
def leastRange (sensed : Nat) : Nat → Nat → Nat
  | 0, e => e
  | fuel + 1, e => if sensed * 2 / 2 ^ e ≤ 1023 then e else leastRange sensed fuel (e + 1)

/-- The new start range (R100). -/
def startRangeOf (sensed : Nat) : Nat := leastRange sensed 7 0

/-- The class history and start range updated by a sensed duration (R99). -/
def ClassEntry.teach (k : ClassEntry) (sensed : Nat) : ClassEntry :=
  { k with prior := k.last, last := some sensed, count := min 2 (k.count + 1), startRange := startRangeOf sensed }

/-- The lesson of a close: taken when the sensed duration is present and the editions are equal (R98). -/
def State.teachClass (s : State) (classNo : Option Nat) (snapshot : Option ClassEntry) (sensed : Option Nat) : State :=
  match classNo, snapshot, sensed with
  | some n, some k, some d =>
    match s.classes[n]? with
    | some now => if now.edition = k.edition then { s with classes := s.classes.set n (now.teach d) } else s
    | none => s
  | _, _, _ => s

end Sys2Proof.Machine
end

