-- ==== Sys2Proof/Machine/BathBook.lean ====
section
/-! DEFINITION. The bath book and the bath scanner: flows and their clamps, bath scans, quiet, reconciliation, and the
book requests (chapter 5). -/

namespace Sys2Proof.Machine

/-! ### Totals and clamps (R105, R108, R110, R111) -/

/-- An unsigned total held at its bound (R108). -/
def cappedTotal (v : Nat) : Nat := min v Config.maxTotal

/-- The book with adjusted changed, held at its bound with SATURATED set when the change would pass it (R108). -/
def Book.adjust (b : Book) (a : Int) : Book :=
  { b with adjusted := clampInt (-(Config.maxTotal : Int)) Config.maxTotal (b.adjusted + a)
           saturated := b.saturated || decide (b.adjusted + a < -(Config.maxTotal : Int)) ||
             decide ((Config.maxTotal : Int) < b.adjusted + a) }

/-- The book with SATURATED set when a new total passes its bound (R108). -/
def Book.markTotal (b : Book) (v : Nat) : Book := { b with saturated := b.saturated || decide (Config.maxTotal < v) }

/-- A debit of M: a debit larger than M sets M to 0 and takes the shortfall from adjusted (R110). -/
def Book.debit (b : Book) (d : Nat) : Book :=
  if b.mass < d then ({ b with mass := 0 }).adjust (-((d : Int) - b.mass)) else { b with mass := b.mass - d }

/-- A credit of M: what would pass the maximum is added to adjusted (R111). -/
def Book.credit (b : Book) (m : Nat) : Book :=
  if Config.maxMass < b.mass + m then ({ b with mass := Config.maxMass }).adjust ((b.mass + m : Nat) - Config.maxMass : Int)
  else { b with mass := b.mass + m }

/-! ### Flows (section 5.4) -/

/-- The charge flow of a mass m (R112). -/
def Book.chargeFlow (b : Book) (m : Nat) : Book :=
  (({ b with charged := cappedTotal (b.charged + m) }).markTotal (b.charged + m)).credit m

/-- The pickup flow of a credited pickup p (R113). -/
def Book.pickupFlow (b : Book) (p : Nat) : Book :=
  (({ b with picked := cappedTotal (b.picked + p) }).markTotal (b.picked + p)).debit p

/-- The dross flow of a dross zinc Zc (R114). -/
def Book.drossFlow (b : Book) (zc : Nat) : Book :=
  (({ b with dross := cappedTotal (b.dross + zc) }).markTotal (b.dross + zc)).debit zc

/-- The ash flow of an ash zinc Za (R115). -/
def Book.ashFlow (b : Book) (za : Nat) : Book :=
  (({ b with ash := cappedTotal (b.ash + za) }).markTotal (b.ash + za)).debit za

/-- Dross zinc that found no job is counted as unallocated (R114, R157). -/
def Book.addUnallocated (b : Book) (zc : Nat) : Book :=
  ({ b with unallocated := cappedTotal (b.unallocated + zc) }).markTotal (b.unallocated + zc)

/-- A share in 256ths of a mass, rounded down (R114, R115). -/
def fraction256 (mass fraction : Nat) : Nat := mass * fraction / 256

/-- The state with the book replaced and the feed-demand line judged again (R116, R134). -/
def State.setBook (s : State) (b : Book) : State := ({ s with book := b }).judgeFeed

/-! ### Bath scans (section 5.5) -/

/-- A reading: floor((raw - zero) × span / 65,536) (R117). -/
def reading (raw zero : Int) (span : Nat) : Int := (raw - zero) * span / 65536

/-- A valid reading: the overload mark clear and the value in 0..bound (R118). -/
def validReading (r : Reading) (zero : Int) (span bound : Nat) : Option Nat :=
  let v := reading r.raw.toInt zero span
  if !r.overload && decide (0 ≤ v) && decide (v ≤ bound) then some v.toNat else none

/-- The channel after a valid or an invalid reading: its runs first, then its health (R118). -/
def Channel.scan (ch : Channel) (valid : Bool) : Channel :=
  let inv := if valid then 0 else min (ch.invalidRun + 1) Config.max16
  let val := if valid then min (ch.validRun + 1) Config.max16 else 0
  { invalidRun := inv
    validRun := val
    health := match ch.health with
      | .good => if 5 ≤ inv then .fault else .good
      | .fault => if 20 ≤ val then .good else .fault }

/-- A channel enters FAULT from `old` to `new`. -/
def entersFault (old new : Health) : Bool := old == .good && new == .fault

/-- A level at the newest end of the history, the oldest leaving when it would exceed 16 (R119). -/
def pushLevel (levels : List Nat) (v : Nat) : List Nat :=
  let ls := levels ++ [v]
  ls.drop (ls.length - Config.ringRoom)

/-- The level channel's stage of a bath scan: health, then history (R118, R119). -/
def BathScanner.scanLevel (b : BathScanner) (v : Option Nat) : BathScanner :=
  let ch := b.level.scan v.isSome
  let levels := if entersFault b.level.health ch.health then [] else b.levels
  { b with level := ch
           levels := match v with
             | some x => if ch.health = .good then pushLevel levels x else levels
             | none => levels }

/-- Whether a bath scan stores its level (R119). -/
def BathScanner.storesLevel (b : BathScanner) (v : Option Nat) : Bool :=
  v.isSome && (b.level.scan v.isSome).health == .good

/-- The temperature channel's stage of a bath scan: health, then the stored temperature and its age (R118, R120). -/
def BathScanner.scanTemp (b : BathScanner) (v : Option Nat) : BathScanner :=
  let ch := b.temp.scan v.isSome
  let stored := if entersFault b.temp.health ch.health then none else b.stored
  match v with
  | some x => if ch.health = .good then { b with temp := ch, stored := some x, age := 0 }
      else { b with temp := ch, stored := stored, age := if stored.isSome then min (b.age + 1) Config.max16 else 0 }
  | none => { b with temp := ch, stored := stored, age := if stored.isSome then min (b.age + 1) Config.max16 else 0 }

/-- The kettle is judged quiet: still, the quiet timer not less than Q, the temperature OK (R123). -/
def State.quietNow (s : State) : Bool :=
  s.still && (match s.recon.quiet with
    | some t => decide (s.settings.quietTime * 10 ≤ t)
    | none => false) && s.tempOk

/-- The judgement of quiet at a bath scan that stored a level or not (R123). -/
def State.judgeQuiet (s : State) (stored : Bool) : State :=
  if s.quietNow then
    { s with recon := { s.recon with
        judgedQuiet := true
        quietLevels := if stored then min (s.recon.quietLevels + 1) Config.max16 else s.recon.quietLevels } }
  else
    { s with recon := { s.recon with judgedQuiet := false, quietLevels := 0, pending := false } }

/-! ### Reconciliation (section 5.7) -/

/-- A reconciliation is taken at this bath scan (R124). -/
def State.reconciles (s : State) : Bool :=
  s.recon.judgedQuiet && decide (16 ≤ s.recon.quietLevels) &&
    (s.recon.since.isNone || s.recon.pending || (match s.recon.since with
      | some t => decide (s.settings.interval * 600 ≤ t)
      | none => false))

/-- Lm: the sum of the levels of the history divided by 16, rounded down (R125). -/
def meanLevel (levels : List Nat) : Nat := levels.sum / 16

/-- The gauge mass G (R125). -/
def gaugeMass (t : Settings) (lm : Nat) : Nat :=
  if t.floorLevel < lm then (lm - t.floorLevel) * t.areaDensity / 256 else 0

/-- The trim A: D × g / 16 truncated toward zero, limited to the maximum trim (R127). -/
def trimOf (t : Settings) (d : Int) : Int := clampInt (-(t.maxTrim : Int)) t.maxTrim ((d * t.trimGain).tdiv 16)

/-- The book reseeded from a gauge mass (R126). -/
def Book.reseed (b : Book) (g : Nat) : Book :=
  { b with mass := g, opening := g, charged := 0, picked := 0, dross := 0, ash := 0, unallocated := 0, adjusted := 0,
           state := .valid }

/-- The book trimmed by A (R127). A trim gain above 16, which only a misdecoded word can give, can make A greater than M: M is then
0, and adjusted takes the whole of A (log 32). -/
def Book.trim (b : Book) (a : Int) : Book :=
  ({ b with mass := ((b.mass : Int) - a).toNat, state := .valid }).adjust a

/-- The reconciliation (R125 to R128). -/
def State.reconcile (s : State) : State :=
  let g := gaugeMass s.settings (meanLevel s.bath.levels)
  let d : Int := (s.book.mass : Int) - g
  let s := { s with recon := { s.recon with gauge := some g, diff := some d, since := some 0, pending := false } }
  if s.book.state = .invalid then
    ({ s with book := s.book.reseed g }).queueRecord (.bookOpened g)
  else if d.natAbs ≤ s.settings.alarm then
    let a := trimOf s.settings d
    let s := { s with book := s.book.trim a }
    if s.settings.tolerance < d.natAbs then s.queueRecord (.trim d a) else s
  else
    ((({ s with book := { s.book with state := .drifting } }).queueRecord (.drift d g)).notify .feed (.drift d)).notify
      .office (.drift d)

/-- The bath scan's stages in their order (R117). -/
def State.scanBath (s : State) (level temp : Reading) : State :=
  let lv := validReading level s.settings.levelZero s.settings.levelSpan 40000
  let tv := validReading temp s.settings.tempZero s.settings.tempSpan 8000
  let stored := s.bath.storesLevel lv
  let faulted := entersFault s.bath.level.health (s.bath.level.scan lv.isSome).health
  let s := { s with bath := (s.bath.scanLevel lv).scanTemp tv
                    recon := { s.recon with quietLevels := if faulted then 0 else s.recon.quietLevels } }
  let s := s.judgeQuiet stored
  let s := if s.reconciles then s.reconcile else s
  s.judgeFeed

/-! ### Book requests (section 5.8, R115) -/

/-- SKIM (R115). Its answer gives the mass and Za in four signed bytes each (log 21). -/
def skimRule (body : List Byte) (s : State) : Reply :=
  let mass := readU16 body
  if mass = 0 then .refused .badValue
  else
    let m := min mass 20000
    let za := fraction256 m s.settings.ashFraction
    .done (massBytes m ++ massBytes za) ((s.setBook (s.book.ashFlow za)).queueRecord (.skim m za))

/-- REBASE (R131). Its answer gives M - G in eight signed bytes (log 21). -/
def rebaseRule (s : State) : Reply :=
  match s.recon.gauge with
  | none => .refused .wrongState
  | some g =>
    let d : Int := (s.book.mass : Int) - g
    .done (leSigned 8 d) (s.setBook { (s.book.adjust d) with mass := g, state := .valid })

/-- The book opened at a mass (R132). -/
def Book.openAt (b : Book) (mass : Nat) : Book :=
  { b with mass := mass, opening := mass, charged := 0, picked := 0, dross := 0, ash := 0, unallocated := 0,
           adjusted := 0, saturated := false, state := .valid }

/-- OPEN BOOK (R132). -/
def openBookRule (body : List Byte) (s : State) : Reply :=
  let mass := readU32 body
  .done [] ((s.setBook (s.book.openAt mass)).queueRecord (.bookOpened mass))

/-- RECONCILE NOW (R130). -/
def reconcileNowRule (s : State) : Reply :=
  if s.recon.judgedQuiet && s.still then .done [] { s with recon := { s.recon with pending := true } }
  else .refused .wrongState

end Sys2Proof.Machine
end

