-- ==== Sys2Proof/Machine/Jobs.lean ====
section
/-! DEFINITION. The job table and the period list: job requests, open dips, the close test, job credit and the dross
allocation (chapter 6). -/

namespace Sys2Proof.Machine

/-! ### Slots -/

/-- The slot of an index; a FREE slot where there is none. -/
def State.job (s : State) (i : Nat) : JobSlot := s.jobs.getD i (JobSlot.vacant .free)

/-- The state with one slot changed. -/
def State.modifyJob (s : State) (i : Nat) (f : JobSlot → JobSlot) : State := { s with jobs := s.jobs.modify i f }

/-- A slot that holds its job number: OPEN, CLOSING or CLOSED (R135). -/
def JobSlot.named (j : JobSlot) (n : Nat) : Bool :=
  (j.state == .opened || j.state == .closing || j.state == .closed) && j.number == some n

/-- A job number that may name a slot (R6, R137, R138, R143). -/
def jobNumberOk (n : Nat) : Bool := decide (1 ≤ n) && decide (n ≤ 999999)

/-- The slot that a job number names, if any (R135): 0 and a number above 999,999 name none (R6). Where two slots come up with one number, as a misdecoded or torn word (R191,
R200) can make them do, the spec does not say which it names: the one of the lowest index (log 33). -/
def State.slotOf (s : State) (n : Nat) : Option Nat :=
  if jobNumberOk n then s.jobs.findIdx? fun j => j.named n else none

/-- Whether a slot has a period-list entry. -/
def hasPeriodEntry (period : List PeriodEntry) (i : Nat) : Bool := period.any fun e => e.slot == i

/-! ### Closing a job (R141, R144, R159) -/

/-- The JOB_CLOSED record of a slot (R141). A slot whose job number a misdecoded or torn word has made absent gives job number 0,
here as in the notice and in the pairs of an ALLOCATION (log 32). -/
def JobSlot.closedRecord (j : JobSlot) (i : Nat) : JobClosedRecord :=
  { slot := i, job := numberOr0 j.number, blackTotal := j.blackTotal, pickupTotal := j.pickupTotal,
    drossShare := j.drossShare, dipCount := j.dipCount, droppedCount := j.droppedCount, noMassCount := j.noMassCount,
    firstEntry := j.firstEntry, lastEntry := j.lastEntry, drossUnallocated := j.drossUnallocated }

/-- The slot becomes CLOSED, keeping every total, count, entry number and flag (R141). -/
def State.closeSlot (s : State) (i : Nat) : State := s.modifyJob i fun j => { j with state := .closed }

/-- The JOB_CLOSED record and notice of one closed slot (R141). -/
def State.announceClosed (s : State) (i : Nat) : State :=
  (s.queueRecord (.jobClosed ((s.job i).closedRecord i))).notify .office (.jobClosed (numberOr0 (s.job i).number))

/-- The JOB_CLOSED records and notices of the slots a step closed, in the order given (R159). -/
def State.announceAll (s : State) (closed : List Nat) : State := closed.foldl State.announceClosed s

/-- The close test passes: CLOSING, no open dip, no period-list entry (R144). -/
def State.closeTest (s : State) (i : Nat) : Bool :=
  (s.job i).state == .closing && (s.job i).openDips == 0 && !hasPeriodEntry s.period i

/-- The close test is run on a slot: the state after it, and the slots it closed (R144). -/
def State.runCloseTest (s : State) (i : Nat) : State × List Nat :=
  if s.closeTest i then (s.closeSlot i, [i]) else (s, [])

/-- The open-dip count of a slot falls by 1 and the close test is run (R144). -/
def State.fallOpenDip (s : State) (i : Nat) : State × List Nat :=
  (s.modifyJob i fun j => { j with openDips := j.openDips - 1 }).runCloseTest i

/-- The fall of the open-dip count of an entry's job, if it has one, with the records and notices of a job it closes:
the part of a lapse or a RELEASE (R15, R18, R159). -/
def State.endDip (s : State) (job : Option JobRef) : State :=
  match job with
  | some j => (s.fallOpenDip j.slot).1.announceAll (s.fallOpenDip j.slot).2
  | none => s

/-! ### Crediting a job (section 6.4) -/

/-- A black mass added to a black total: a change that would pass a bound takes it, and a total held at its bound stays
there (R149). -/
def addBlack (total m : Int) : Int :=
  if total = Config.maxTotal ∨ total = -(Config.maxTotal : Int) then total
  else clampInt (-(Config.maxTotal : Int)) Config.maxTotal (total + m)

/-- The slot's part of a credit, steps 1 to 5 of R147, with the bounds of R149; an absent mass leaves its total as it is. -/
def JobSlot.credit (j : JobSlot) (black pickup : Option Int) (entry : Nat) : JobSlot :=
  { j with
    blackTotal := black.elim j.blackTotal (addBlack j.blackTotal)
    pickupTotal := pickup.elim j.pickupTotal fun p => min (j.pickupTotal + p.toNat) Config.maxTotal
    dipCount := min (j.dipCount + 1) Config.max16
    noMassCount := if pickup.isNone then min (j.noMassCount + 1) Config.max16 else j.noMassCount
    firstEntry := if j.firstEntry.isNone then some entry else j.firstEntry
    lastEntry := some entry }

/-- A black mass above 0 joins the period list: to the job's entry, or as a new entry at the tail (R150). Where a slot stands twice
in a list restored from misdecoded or torn words (R191, R200), the spec does not say which entry gains it: each does (log 33). -/
def addPeriod (period : List PeriodEntry) (i black : Nat) : List PeriodEntry :=
  if hasPeriodEntry period i then
    period.map fun e => if e.slot = i then { e with black := min (e.black + black) Config.maxBlackSum } else e
  else period ++ [{ slot := i, black := black }]

/-- The period list takes a black mass: absent, 0 or less it changes nothing (R150). -/
def takePeriod (period : List PeriodEntry) (i : Nat) (black : Option Int) : List PeriodEntry :=
  match black with
  | some m => if 0 < m then addPeriod period i m.toNat else period
  | none => period

/-- The credit of a dip to its job: the state after it and the slots it closed (R147). -/
def State.creditJob (s : State) (i : Nat) (black pickup : Option Int) (entry : Nat) : State × List Nat :=
  let s := s.modifyJob i fun j => j.credit black pickup entry
  ({ s with period := takePeriod s.period i black }).fallOpenDip i

/-! ### Dross allocation (section 6.6) -/

/-- The floor shares of the period list's entries, of a black sum above 0 (R155, step 2). -/
def floorShares (zc : Nat) (period : List PeriodEntry) : List Nat :=
  period.map fun e => zc * e.black / (period.map PeriodEntry.black).sum

/-- A dross zinc divided over `n` entries by a free rule: each takes what the rule gives its place, as far as it is still
there, and the last one the rest. -/
def freeShares (rule : Nat → Nat) : (n zc : Nat) → List Nat
  | 0, _ => []
  | 1, zc => [zc]
  | n + 2, zc => min (rule (n + 2)) zc :: freeShares rule (n + 1) (zc - min (rule (n + 2)) zc)

/-- The shares: the floor shares, with one unit more for each of the first r entries, r the remainder (R155). Where the black masses
sum to 0, as in a list restored from torn or misdecoded words (R191, R200), the spec does not state the shares: they are free
values that sum to the dross zinc (log 34). -/
def sharesOf (zc : Nat) (period : List PeriodEntry) : List Nat :=
  if (period.map PeriodEntry.black).sum = 0 then freeShares (Config.zeroSumShare zc period.length) period.length zc
  else
    let floors := floorShares zc period
    let r := zc - floors.sum
    floors.zipIdx.map fun p => if p.2 < r then p.1 + 1 else p.1

/-- A share added to a slot's dross share (R156, R149). -/
def JobSlot.addShare (j : JobSlot) (share : Nat) : JobSlot :=
  { j with drossShare := min (j.drossShare + share) Config.maxTotal }

/-- The shares applied to the slots of the entries (R156). -/
def State.applyShares (s : State) (shares : List (PeriodEntry × Nat)) : State :=
  shares.foldl (fun s p => s.modifyJob p.1.slot fun j => j.addShare p.2) s

/-- The slots that close after an allocation: CLOSING with no open dip, in order of slot index (R158). -/
def State.closable (s : State) : List Nat :=
  (List.range s.jobs.length).filter fun i => (s.job i).state == .closing && (s.job i).openDips == 0

/-- The allocation of a dross zinc: the state after it, the pairs of its record and the slots it closed (R155 to
R158). -/
def State.allocate (s : State) (zc : Nat) : State × List (Nat × Nat) × List Nat :=
  let shares := s.period.zip (sharesOf zc s.period)
  let pairs := shares.map fun p => (numberOr0 (s.job p.1.slot).number, p.2)
  let s1 :=
    if s.period.isEmpty then { s with book := s.book.addUnallocated zc }
    else { s.applyShares shares with period := [] }
  (s1.closable.foldl State.closeSlot s1, pairs, s1.closable)

/-! ### Job requests (section 6.2) -/

/-- OPEN JOB (R137). -/
def openJobRule (body : List Byte) (s : State) : Reply :=
  let a := JobArgs.read body
  if !jobNumberOk a.job || decide (15 < a.other) then .refused .badValue
  else if (s.slotOf a.job).isSome then .refused .duplicate
  else match s.jobs.findIdx? fun j => j.state == .free with
    | none => .refused .tableFull
    | some i =>
      .done (u8 i) (s.modifyJob i fun _ =>
        { JobSlot.vacant .opened with number := some a.job, defaultClass := some a.other })

/-- CLOSE JOB in WAIT mode (R139). -/
def closeJobWait (i : Nat) (s : State) : Reply :=
  let s1 := s.modifyJob i fun j => if j.state = .opened then { j with state := .closing } else j
  let r := s1.runCloseTest i
  .done (u8 (r.1.job i).state.code) (r.1.announceAll r.2)

/-- CLOSE JOB in NOW mode (R140). -/
def closeJobNow (i : Nat) (s : State) : Reply :=
  let had := hasPeriodEntry s.period i
  let s1 := { s with period := s.period.filter fun e => e.slot != i }
  let s2 := s1.modifyJob i fun j => { j with drossUnallocated := j.drossUnallocated || had }
  .done (u8 JobState.closed.code ++ yesNo had) ((s2.closeSlot i).announceAll [i])

/-- CLOSE JOB (R138). -/
def closeJobRule (body : List Byte) (s : State) : Reply :=
  let a := JobArgs.read body
  if (a.other != 1 && a.other != 2) || !jobNumberOk a.job then .refused .badValue
  else match s.slotOf a.job with
    | none => .refused .noJob
    | some i =>
      if (s.job i).state = .closed then .refused .wrongState
      else if a.other = 2 ∧ 0 < (s.job i).openDips then .refused .dipsOpen
      else if a.other = 1 then closeJobWait i s
      else closeJobNow i s

/-- REMOVE JOB (R142). -/
def removeJobRule (body : List Byte) (s : State) : Reply :=
  let i := readU8 body
  if Config.jobCount ≤ i then .refused .badValue
  else if (s.job i).state = .closed ∨ (s.job i).state = .damaged then
    .done [] (s.modifyJob i fun _ => JobSlot.vacant .free)
  else .refused .wrongState

end Sys2Proof.Machine
end

