-- ==== Sys2Proof/Machine/LaneMap.lean ====
section
/-! DEFINITION. The lane map: kettle setup, reservations, JOIN, the feed zone, lapse, release and FOUL lanes
(chapter 1). -/

namespace Sys2Proof.Machine

/-! ### Kettle setup (R4) -/

/-- The fields of SETUP KETTLE lie in their ranges (R4, step 3). -/
def SetupArgs.inRange (a : SetupArgs) : Bool :=
  decide (4 ≤ a.nl) && decide (a.nl ≤ 16) && decide (a.g ≤ 3) && decide (a.fzf ≤ a.fzl) && decide (a.fzl ≤ a.nl - 1)

/-- SETUP KETTLE (R4). -/
def setupKettleRule (body : List Byte) (s : State) : Reply :=
  let a := SetupArgs.read body
  if s.mode ≠ .held then .refused .kettleNotRun
  else if s.lanes.any (fun ln => ln.holder != .free) then .refused .mapNotEmpty
  else if !a.inRange then .refused .badValue
  else .done [] { s with setup := { nl := a.nl, g := a.g, fzf := a.fzf, fzl := a.fzl, confirmed := true } }

/-! ### Crane reservations (R5 to R10) -/

/-- The crane order is broken by a span that is not tandem (R8). -/
def orderBroken (c : Crane) (lanes : List Lane) (g : Nat) (sp : Span) : Bool :=
  lanes.zipIdx.any fun p =>
    match c with
    | .craneA => p.1.holder == .craneB && decide (p.2 < sp.l + g + 1)
    | .craneB => p.1.holder == .craneA && decide (sp.f < p.2 + g + 1)

/-- Step 1 of R6: a context that must be IDLE is not. -/
def reserveBusy (c : Crane) (a : ReserveArgs) (s : State) : Bool :=
  (s.cranes.get c).state != .idle ||
    (a.tandem == 1 && (s.cranes.craneA.state != .idle || s.cranes.craneB.state != .idle))

/-- The entry kind is billed to a job (R5). -/
def EntryKind.billed : EntryKind → Bool
  | .work | .progressive => true
  | .dross | .charge => false

/-- Step 3 of R6: the refusal of the job, if any; not applied to DROSS or to a kind outside the three. -/
def reserveJobRefusal (a : ReserveArgs) (s : State) : Option Status :=
  match kindOfCode a.kind with
  | some k =>
    if k.billed then
      match s.slotOf a.job with
      | none => some .noJob
      | some i => if (s.job i).state = .opened then none else some .jobNotOpen
    else none
  | none => none

/-- Step 4 of R6: a field out of its range. -/
def reserveBadValue (c : Crane) (a : ReserveArgs) (s : State) : Bool :=
  decide (a.l < a.f) || decide (s.setup.nl ≤ a.l) || (kindOfCode a.kind).isNone ||
    (a.tandem != 0 && a.tandem != 1) || (a.tandem == 1 && c == .craneB) ||
    (decide (15 < a.cls) && a.cls != classDefault) ||
    (kindOfCode a.kind == some .dross && (a.job != 0 || a.cls == classDefault))

/-- The first refusal of R6 that applies, if any. -/
def reserveRefusal (c : Crane) (a : ReserveArgs) (s : State) : Option Status :=
  if reserveBusy c a s then some .wrongState
  else if s.mode ≠ .run then some .kettleNotRun
  else match reserveJobRefusal a s with
    | some st => some st
    | none =>
      if reserveBadValue c a s then some .badValue
      else if !spanFree s.lanes { f := a.f, l := a.l } then some .lanesTaken
      else if a.tandem = 0 ∧ orderBroken c s.lanes s.setup.g { f := a.f, l := a.l } = true then some .orderConflict
      else none

/-- The job an admitted RESERVE names: none for DROSS (R5, R145). -/
def reserveJob (a : ReserveArgs) (s : State) : Option JobRef :=
  if (kindOfCode a.kind).any EntryKind.billed then (s.slotOf a.job).map fun i => { number := a.job, slot := i }
  else none

/-- The class an admitted RESERVE resolves to (R31). A slot whose default class a misdecoded or torn word has made absent gives
class 0 (log 32). -/
def reserveClass (a : ReserveArgs) (s : State) : Nat :=
  if a.cls = classDefault then
    match reserveJob a s with
    | some j => numberOr0 (s.job j.slot).defaultClass
    | none => 0
  else a.cls

/-- The class of a number. A number above 15, which only a misdecoded or torn default class can give, names none: a factory
class of edition 0 (log 32). -/
def State.classAt (s : State) (n : Nat) : ClassEntry := s.classes.getD n (ClassEntry.factory 0)

/-- The writing crane's context after an admission (R9, R10, R31). -/
def reservedContext (a : ReserveArgs) (s : State) : CraneContext :=
  { CraneContext.idle none with
    entry := some s.issued
    kind := kindOfCode a.kind
    state := .reserved
    join := if a.tandem = 1 then some .joinPending else none
    link := if a.tandem = 1 then .lead else .alone
    job := reserveJob a s
    classNo := some (reserveClass a s)
    snapshot := some (s.classAt (reserveClass a s))
    span := some { f := a.f, l := a.l }
    flags := EntryFlags.atReserve (s.classAt (reserveClass a s))
    lapse := some (s.settings.lapse * 10) }

/-- Crane B's context after a tandem admission: the entry number, the span, the join state and the link (R10, R26). -/
def partnerContext (a : ReserveArgs) (s : State) : CraneContext :=
  { CraneContext.idle none with
    entry := some s.issued
    state := .reserved
    join := some .joinPending
    link := .linked
    span := some { f := a.f, l := a.l } }

/-- The open-dip count of a job rises by 1 (R9, step 4). -/
def State.raiseOpenDip (s : State) (job : Option JobRef) : State :=
  match job with
  | some j => s.modifyJob j.slot fun x => { x with openDips := x.openDips + 1 }
  | none => s

/-- The changes of an admission, made together (R9, R10). -/
def State.admitCrane (s : State) (c : Crane) (a : ReserveArgs) : State :=
  let tandem := a.tandem == 1
  let s1 : State :=
    { s with
      lanes := takeSpan s.lanes { f := a.f, l := a.l } (holderOf c tandem) s.issued
      cranes := if tandem then ⟨reservedContext a s, partnerContext a s⟩ else s.cranes.set c (reservedContext a s)
      counter := nextNumber s.issued
      live := s.live ++ [{ entry := s.issued, holders := holdersOf c tandem }] }
  let s2 := s1.raiseOpenDip (reserveJob a s)
  if tandem then s2.notify .craneB (.joinWanted s.issued a.f a.l) else s2

/-- RESERVE by a crane (R6, R9). -/
def reserveRule (c : Crane) (body : List Byte) (s : State) : Reply :=
  let a := ReserveArgs.read body
  match reserveRefusal c a s with
  | some st => .refused st
  | none => .done (u16 s.issued) (s.admitCrane c a)

/-- JOIN by a crane (R11). -/
def joinRule (c : Crane) (body : List Byte) (s : State) : Reply :=
  let n := readU16 body
  let b := s.cranes.craneB
  match c with
  | .craneA => .refused .wrongState
  | .craneB =>
    if b.state = .reserved ∧ b.join = some .joinPending then
      if b.entry = some n then
        .done [] { s with cranes := { craneA := { s.cranes.craneA with join := some .joined }
                                      craneB := { b with state := .linked, join := some .joined } } }
      else .refused .badValue
    else if b.state = .idle ∧ b.lapseMark = some n then .refused .lapsed
    else .refused .wrongState

/-! ### The feed zone (R12, R13, R19, R20) -/

/-- The feed zone. -/
def Setup.feedZone (u : Setup) : Span := { f := u.fzf, l := u.fzl }

/-- CHARGE (R12, R13). R12 does not test the feed zone: one that a misdecoded word has left inverted or outside the kettle is
reserved as far as the map has its lanes (log 32). -/
def chargeRule (body : List Byte) (s : State) : Reply :=
  let mass := readU16 body
  if s.feed.reserved then .refused .wrongState
  else if s.mode = .stopped then .refused .kettleNotRun
  else if mass = 0 then .refused .badValue
  else if !spanFree s.lanes s.setup.feedZone then .refused .lanesTaken
  else
    .done (u16 s.issued)
      { s with
        lanes := takeSpan s.lanes s.setup.feedZone .feed s.issued
        feed := { entry := some s.issued, reserved := true, span := some s.setup.feedZone, mass := some mass,
                  lapseMark := none, lapse := some (s.settings.lapse * 10) }
        counter := nextNumber s.issued
        live := s.live ++ [{ entry := s.issued, holders := .feed }] }

/-- The answer of a late request to an IDLE context: LAPSED when its lapse mark is present (R16). -/
def lateAnswer (mark : Option Nat) : Status := if mark.isSome then .lapsed else .wrongState

/-- The feed entry ends: the feed zone is freed, the number leaves the live-entry list, the feed context returns to IDLE
with the lapse mark given (R15, R19, R20). -/
def State.endFeed (s : State) (mark : Option Nat) : State :=
  let n := numberOr0 s.feed.entry
  ({ s with lanes := freeEntry s.lanes n, feed := FeedContext.idle mark }).dropLive n

/-- CHARGE ABORT (R19). -/
def chargeAbortRule (s : State) : Reply :=
  if s.feed.reserved then .done [] (s.endFeed none) else .refused (lateAnswer s.feed.lapseMark)

/-- The mass a CHARGE IN credits: the charge mass, at most 30,000 (R112). -/
def creditedCharge (mass : Nat) : Nat := min mass 30000

/-- CHARGE IN (R20, R112): the flow and its record first, then the zone. Its answer gives the credited mass in four signed bytes
(log 21). -/
def chargeInRule (s : State) : Reply :=
  if s.feed.reserved then
    let mass := numberOr0 s.feed.mass
    let m := creditedCharge mass
    let clamped := decide (30000 < mass)
    let s1 := (s.setBook (s.book.chargeFlow m)).queueRecord (.charge (numberOr0 s.feed.entry) m clamped)
    .done (massBytes m ++ yesNo clamped) (s1.endFeed none)
  else .refused (lateAnswer s.feed.lapseMark)

/-! ### Lapse and RELEASE (R15, R18) -/

/-- A crane's reservation ends before LOWER: its lanes are freed, its contexts return to IDLE with the lapse mark given,
its number leaves the live-entry list and its job's open-dip count falls (R15, R18). -/
def State.endReservation (s : State) (c : Crane) (mark : Option Nat) : State :=
  let x := s.cranes.get c
  let n := numberOr0 x.entry
  let s1 := ({ s with lanes := freeEntry s.lanes n }.idleCranes c x.leads mark).dropLive n
  s1.endDip x.job

/-- RELEASE by a crane (R18). -/
def releaseRule (c : Crane) (s : State) : Reply :=
  let x := s.cranes.get c
  match x.state with
  | .reserved => if x.link = .linked then .refused .notLead else .done [] (s.endReservation c none)
  | .linked => .refused .notLead
  | .idle => .refused (lateAnswer x.lapseMark)
  | _ => .refused .wrongState

/-- The crane whose context holds the lapse timer of a crane's entry: the lead of a tandem entry (R14). -/
def State.leadOf (s : State) (c : Crane) : Crane := if (s.cranes.get c).link = .linked then .craneA else c

/-- A lapse timer runs and has no more than its last tenth of a second left: the L seconds since the admission have passed by
the next load scan (R14, log 3, log 4). -/
def runsOut (timer : Option Nat) : Bool := timer.any fun t => decide (t ≤ 1)

/-- The lapse timer of a context's reservation runs out (R14). -/
def State.lapsesAt (s : State) : Context → Bool
  | .craneA => (s.cranes.get (s.leadOf .craneA)).state == .reserved && runsOut (s.cranes.get (s.leadOf .craneA)).lapse
  | .craneB => (s.cranes.get (s.leadOf .craneB)).state == .reserved && runsOut (s.cranes.get (s.leadOf .craneB)).lapse
  | .feed => s.feed.reserved && runsOut s.feed.lapse

/-- A crane's reservation lapses (R15). -/
def State.lapseCrane (s : State) (c : Crane) : State :=
  let lead := s.leadOf c
  let x := s.cranes.get lead
  (s.endReservation lead x.entry).notifyEntry lead x.leads (.lapsed (numberOr0 x.entry))

/-- The feed reservation lapses (R15). -/
def State.lapseFeed (s : State) : State :=
  (s.endFeed s.feed.entry).notify .feed (.lapsed (numberOr0 s.feed.entry))

/-- A lapse timer expires (R15), if it runs out (R14). -/
def State.lapseEntry (s : State) (c : Context) : State :=
  if s.lapsesAt c then
    match c with
    | .craneA => s.lapseCrane .craneA
    | .craneB => s.lapseCrane .craneB
    | .feed => s.lapseFeed
  else s

/-! ### FOUL lanes (R23) -/

/-- CLEAR FOUL (R23). A number of 0 is refused, also where a misdecoded FOUL item has left lanes FOUL with it (log 32). -/
def clearFoulRule (body : List Byte) (s : State) : Reply :=
  let n := readU16 body
  if n ≠ 0 ∧ s.lanes.any (fun ln => ln.holder == .foul && ln.entry == some n) = true then
    .done [] { s with lanes := clearFoulLanes s.lanes n, foul := s.foul.filter fun it => it.entry != n }
  else .refused .badValue

end Sys2Proof.Machine
end

