-- ==== Sys2Proof/Machine/Queues.lean ====
section
/-! DEFINITION. The record queue and the notice queues as their stations see them: record layouts, notice coding,
TAKE RECORDS and TAKE NOTICE (chapter 8). -/

namespace Sys2Proof.Machine

/-! ### Record layouts (R181, R182, R199) -/

/-- A mass of a record, or its absent marker -2,147,483,648 (R181, R182). -/
def markedMass (m : Option Int) : List Byte := massBytes (m.getD (-2147483648))

/-- The kind code of a record (R180). -/
def RecordBody.code : RecordBody → Nat
  | .dip _ => 1
  | .dross _ _ _ _ => 2
  | .charge _ _ _ => 3
  | .skim _ _ => 4
  | .trim _ _ => 5
  | .drift _ _ => 6
  | .bookOpened _ => 7
  | .allocation _ _ => 8
  | .jobClosed _ => 9
  | .dropped _ _ _ _ => 10
  | .restart _ _ => 11

/-- The fields of a DIP record from offset 5 on (R181). -/
def DipRecord.bytes (r : DipRecord) : List Byte :=
  u16 r.entry ++ u8 r.kind.code ++ u8 r.cranes.code ++ u24 r.job ++ u8 r.classNo ++ u8 r.edition ++
    markedMass r.black ++ markedMass r.drained ++ markedMass r.pickup ++
    u8 r.immTimes.length ++ u16 (r.immTimes.getD 0 0) ++ u16 (r.immTimes.getD 1 0) ++
    u16 r.duration ++ u8 r.cause.code ++ u16 r.flags.bits

/-- The fields of a JOB_CLOSED record from offset 5 on (R182). -/
def JobClosedRecord.bytes (r : JobClosedRecord) : List Byte :=
  u8 r.slot ++ u24 r.job ++ leSigned 6 r.blackTotal ++ u48 r.pickupTotal ++ u48 r.drossShare ++ u16 r.dipCount ++
    u16 r.droppedCount ++ u16 r.noMassCount ++ u16 (numberOr0 r.firstEntry) ++ u16 (numberOr0 r.lastEntry) ++
    yesNo r.drossUnallocated

/-- The fields of a record after its common five bytes (R181, R182, R199). -/
def RecordBody.bytes : RecordBody → List Byte
  | .dip r => r.bytes
  | .dross entry cranes x zc => u16 entry ++ u8 cranes.code ++ markedMass x ++ u32 zc
  | .charge entry mass clamped => u16 entry ++ u16 mass ++ yesNo clamped
  | .skim mass za => u16 mass ++ u16 za
  | .trim d a => massBytes d ++ massBytes a
  | .drift d g => leSigned 8 d ++ u32 g
  | .bookOpened opening => u32 opening
  | .allocation zc pairs => u32 zc ++ u8 pairs.length ++ pairs.flatMap fun p => u24 p.1 ++ u32 p.2
  | .jobClosed r => r.bytes
  | .dropped entry job f l => u16 entry ++ u24 (numberOr0 job) ++ u8 f ++ u8 l
  | .restart abandoned damaged =>
    u8 abandoned.length ++ u8 damaged.length ++
      (abandoned.flatMap fun e => u16 e.entry ++ u8 e.holders.code) ++
      damaged.flatMap fun d => u8 d.region ++ u8 d.index

/-- A record on the link: kind, length from its first byte, gap with 0 for absent, and its fields (section 8.3). -/
def Record.bytes (r : Record) : List Byte :=
  u8 r.body.code ++ u16 (r.body.bytes.length + 5) ++ u16 (r.gap.getD 0) ++ r.body.bytes

/-! ### TAKE RECORDS (R183) -/

/-- How many records from the head fit: at most `n`, and at most `room` bytes. -/
def fitting : Nat → Nat → List Record → Nat
  | 0, _, _ => 0
  | _ + 1, _, [] => 0
  | n + 1, room, r :: rs => if r.bytes.length ≤ room then fitting n (room - r.bytes.length) rs + 1 else 0

/-- The records a TAKE RECORDS of count `n` takes: whole, within the 1024 bytes of an answer less its 4 first bytes
(R183). -/
def RecordQueue.taken (q : RecordQueue) (n : Nat) : Nat := fitting n (Config.answerRoom - 4) q.items

/-- TAKE RECORDS (R183). -/
def takeRecordsRule (body : List Byte) (s : State) : Reply :=
  let n := readU8 body
  if n = 0 ∨ 8 < n then .refused .badValue
  else
    let k := s.records.taken n
    let left := s.records.items.drop k
    .done (u8 k ++ u8 left.length ++ u16 s.records.lost ++ (s.records.items.take k).flatMap Record.bytes)
      { s with records := { s.records with items := left } }

/-! ### Notices (R186, R187, R210) -/

/-- The kind code of a notice (R186). -/
def Notice.code : Notice → Nat
  | .lapsed _ => 1
  | .overdip _ _ => 2
  | .holdOver _ _ => 3
  | .drainEnd _ _ _ _ => 4
  | .hookFault _ => 5
  | .joinWanted _ _ _ => 6
  | .stopped _ => 7
  | .resumed => 8
  | .feedLow _ => 9
  | .drift _ => 10
  | .bookInvalid => 11
  | .jobClosed _ => 12
  | .storeDamage _ => 13

/-- The values of a DRAIN_END notice, as the notice and the answer to an early LEAVE carry them (R49, R186). -/
def drainEndBytes (entry : Nat) (kind : EntryKind) (cause : EndCause) (value : Option Int) : List Byte :=
  u16 entry ++ u8 kind.code ++ u8 cause.code ++ optional 4 massBytes value

/-- The fields of a notice (R186, coded by R210). -/
def Notice.fields : Notice → List Byte
  | .lapsed entry => u16 entry
  | .overdip entry endNo => u16 entry ++ u8 endNo
  | .holdOver entry classNo => u16 entry ++ u8 classNo
  | .drainEnd entry kind cause value => drainEndBytes entry kind cause value
  | .hookFault hook => u8 (hookCode hook)
  | .joinWanted entry f l => u16 entry ++ u8 f ++ u8 l
  | .stopped ended => u8 ended.code
  | .resumed => []
  | .feedLow mass => u32 mass
  | .drift d => leSigned 8 d
  | .bookInvalid => []
  | .jobClosed job => u24 job
  | .storeDamage count => u8 count

/-- A notice in an answer: its kind code, the length of its fields, its fields (R210). -/
def Notice.bytes (n : Notice) : List Byte := u8 n.code ++ u8 n.fields.length ++ n.fields

/-- TAKE NOTICE on a port (R187). -/
def takeNoticeRule (p : Port) (s : State) : Reply :=
  let q := s.notices.get p
  let out := q.items.take 4
  let left := q.items.drop 4
  .done (u8 out.length ++ u8 left.length ++ yesNo q.overflow ++ out.flatMap Notice.bytes)
    { s with notices := s.notices.set p { items := left, overflow := false } }

end Sys2Proof.Machine
end

