-- ==== Sys2Proof/Machine/Entries.lean ====
section
/-! DEFINITION. The kettle entries: the requests that move an entry, immersion timing, the drain end and the accounting
of a close, and the class table's requests (chapter 2). -/

namespace Sys2Proof.Machine

/-! ### The tests of R34 and R36 -/

/-- Test 1 of R34: the context is held in a tandem entry and the writer is crane B. -/
def notLead (x : CraneContext) : Bool := x.link == .linked

/-- LOWER's refusals of R34 and R36, the first that applies. -/
def lowerRefusal (c : Crane) (s : State) : Option Status :=
  let x := s.cranes.get c
  if notLead x then some .notLead
  else if x.state = .idle ∧ x.lapseMark.isSome = true then some .lapsed
  else if (x.state ≠ .reserved ∧ x.state ≠ .readySecond) ∨ (x.state = .reserved ∧ x.join = some .joinPending) then
    some .wrongState
  else if s.mode ≠ .run then some .kettleNotRun
  else if s.tempOk = false then some .tempOut
  else none

/-- The refusals of R34 for a request with the given From states, other than LOWER. -/
def moveRefusal (c : Crane) (s : State) (fromStates : List EntryState) : Option Status :=
  let x := s.cranes.get c
  if notLead x then some .notLead
  else if fromStates.contains x.state then none
  else some .wrongState

/-! ### LOWER, SUBMERGED, WITHDRAW (R35 to R39) -/

/-- The flags a black capture takes for the hooks of an entry (R65, R66). -/
def blackFlags (fl : EntryFlags) (hooks : List Hook) (t : Settings) : EntryFlags :=
  fl.takeBlack (hooks.any Hook.blackNoMass) (hooks.any fun h => h.blackUnsteady t)

/-- The context lowered at end 1 (R35). -/
def CraneContext.lowerFirst (x : CraneContext) (black : Option Int) (flags : EntryFlags) : CraneContext :=
  { x with state := .lowering, endNo := some 1, lapse := none, black := black, flags := flags, immTimer := 0,
           immRunning := true, submerged := none, limitTaken := false }

/-- The context lowered at end 2 (R37). -/
def CraneContext.lowerSecond (x : CraneContext) : CraneContext :=
  { x with state := .lowering, immTimer := 0, immRunning := true, submerged := none, limitTaken := false }

/-- LOWER by a crane (R35, R37). -/
def lowerRule (c : Crane) (s : State) : Reply :=
  let x := s.cranes.get c
  match lowerRefusal c s with
  | some st => .refused st
  | none =>
    if x.state = .readySecond then
      .done (optional 4 massBytes x.black) (s.setCrane c x.lowerSecond)
    else
      let black := s.blackMass c x.leads
      .done (optional 4 massBytes black)
        (s.setCrane c (x.lowerFirst black (blackFlags x.flags (s.hooksOf c x.leads) s.settings)))

/-- SUBMERGED by a crane (R38). -/
def submergedRule (c : Crane) (s : State) : Reply :=
  let x := s.cranes.get c
  match moveRefusal c s [.lowering] with
  | some st => .refused st
  | none => .done [] (s.setCrane c { x with state := .immersed, submerged := some x.immTimer })

/-- The flag set a WITHDRAW leaves (R39). -/
def withdrawFlags (x : CraneContext) : EntryFlags :=
  if x.state = .lowering then x.flags.takePartial
  else x.flags.takeShort (x.immTimer - numberOr0 x.submerged) ((x.snapshot.map ClassEntry.immMin).getD 0)

/-- WITHDRAW by a crane (R39). -/
def withdrawRule (c : Crane) (s : State) : Reply :=
  let x := s.cranes.get c
  match moveRefusal c s [.immersed, .lowering] with
  | some st => .refused st
  | none => .done [] (s.setCrane c { x with state := .withdrawing, flags := withdrawFlags x })

/-! ### Immersion limit (R41) -/

/-- The immersion limit of the current end expires: the timer stands at the limit or above it, the flag set takes
OVERDIP and the cause OVERDIP joins the withdraw demand. -/
def CraneContext.expireLimit (x : CraneContext) (limit : Nat) : CraneContext :=
  { x with immTimer := max x.immTimer limit, flags := x.flags.takeOverdip, demand := x.demand.takeOverdip,
           limitTaken := true }

/-- An immersion limit can expire: the timer runs in LOWERING, IMMERSED or WITHDRAWING and the end has not expired yet. -/
def CraneContext.canExpire (x : CraneContext) : Bool :=
  x.immRunning && !x.limitTaken && (x.state == .lowering || x.state == .immersed || x.state == .withdrawing)

/-- The expiry of a crane context's immersion limit when its immersion timer stands less than `lead` below the limit, or at
it or above it (R41). -/
def State.expireWithin (s : State) (c : Crane) (lead : Nat) : State :=
  let x := s.cranes.get c
  match x.snapshot with
  | none => s
  | some k =>
    if x.canExpire && decide (k.immLimit ≤ x.immTimer + lead) then
      (s.setCrane c (x.expireLimit k.immLimit)).notifyEntry c x.leads
        (.overdip (numberOr0 x.entry) (numberOr0 x.endNo))
    else s

/-- The immersion limit is reported expired (R41): taken in the last tenth of a second before the timer's reading reaches the
limit, or after it; a report before that changes nothing (log 4). -/
def State.expireImmersion (s : State) (c : Crane) : State := s.expireWithin c 1

/-- The 100 ms between a load scan and the one before it have passed (log 3), and the immersion limit of each crane's end
expires where its timer has reached it (R41). -/
def State.elapse (s : State) : State := (s.pass.expireWithin .craneA 0).expireWithin .craneB 0

/-! ### CLEAR and TURNED (R43, R44) -/

/-- The context after CLEAR, in the state given (R43). -/
def CraneContext.cleared (x : CraneContext) (st : EntryState) : CraneContext :=
  { x with state := st, immTimes := x.immTimes ++ [x.immTimer], immRunning := false, submerged := none,
           demand := Demand.empty }

/-- A CLEAR that goes to TURNING: PROGRESSIVE, end 1 (R43). -/
def CraneContext.turnsNext (x : CraneContext) : Bool := x.kind == some .progressive && x.endNo == some 1

/-- The drain starts: the timer from the snapshot with its HOLD_OVER, and the drain watch (R43, R67, R84, R90). -/
def State.startDrain (s : State) (c : Crane) (k : ClassEntry) : State :=
  let x := s.cranes.get c
  let s1 : State :=
    { s with
      cranes := s.cranes.set c { x.cleared .draining with flags := x.flags.takeHoldOver k.holdExceeds }
      timers := s.timers.set c (DrainTimer.start k)
      watches := s.watches.set c (Watch.start k (s.hooksOf c x.leads) x.leads) }
  if k.holdExceeds then s1.notifyEntry c x.leads (.holdOver (numberOr0 x.entry) (numberOr0 x.classNo)) else s1

/-- CLEAR by a crane (R43). -/
def clearRule (c : Crane) (s : State) : Reply :=
  let x := s.cranes.get c
  match moveRefusal c s [.withdrawing] with
  | some st => .refused st
  | none =>
    if x.turnsNext then .done (u16 x.immTimer) (s.setCrane c (x.cleared .turning))
    else
      let k := x.snapshot.getD (ClassEntry.factory 0)
      .done (u16 x.immTimer ++ u16 k.expectedHold) (s.startDrain c k)

/-- TURNED by a crane (R44). -/
def turnedRule (c : Crane) (s : State) : Reply :=
  let x := s.cranes.get c
  match moveRefusal c s [.turning] with
  | some st => .refused st
  | none => .done [] (s.setCrane c { x with state := .readySecond, endNo := some 2 })

/-! ### The accounting of a close (R45 to R49, R159) -/

/-- The inputs of an accounting, fixed at its first two steps: the drain and the masses (R46). -/
structure Closing where
  cause    : EndCause
  duration : Nat
  sensed   : Option Nat
  drained  : Option Int
  credited : Option Int
  flags    : EntryFlags
  deriving DecidableEq, Repr

/-- Steps 1 and 2 of R46: the durations of the timer, the drained mass, the pickup or dross mass, and the flags. -/
def State.closing (s : State) (c : Crane) (cause : EndCause) (reported : Option Int) : Closing :=
  let x := s.cranes.get c
  let hooks := s.hooksOf c (s.watches.get c).bothHooks
  let drained := drainedMass cause reported (s.watches.get c) hooks
  let diff := massDifference x.black drained
  { cause := cause
    duration := (s.timers.get c).duration
    sensed := (s.timers.get c).sensed
    drained := drained
    credited := credited diff
    flags := x.flags.takeDrained (drained.isNone && hooks.any (fun h => h.health == .fault))
      (diff.any fun d => decide (d < 0)) }

/-- The timer and the watch of a context that leaves DRAINING return to their idle values, and the context enters DRAINED
with the flags of its accounting (R45, R77, R96). -/
def State.endWatch (s : State) (c : Crane) (k : Closing) : State :=
  { s with
    cranes := s.cranes.set c { s.cranes.get c with state := .drained, flags := k.flags }
    timers := s.timers.set c DrainTimer.idle
    watches := s.watches.set c Watch.inactive }

/-- The DIP record of an accounting (R46, step 6). -/
def dipRecord (x : CraneContext) (c : Crane) (k : Closing) : DipRecord :=
  { entry := numberOr0 x.entry
    kind := x.kind.getD .work
    cranes := cranesOf c x.leads
    job := numberOr0 (x.job.map JobRef.number)
    classNo := numberOr0 x.classNo
    edition := numberOr0 (x.snapshot.map ClassEntry.edition)
    black := x.black
    drained := k.drained
    pickup := k.credited
    immTimes := x.immTimes
    duration := k.duration
    cause := k.cause
    flags := k.flags }

/-- The DRAIN_END notice of an accounting (R46, R47, step 7). -/
def drainEndNotice (x : CraneContext) (k : Closing) : Notice :=
  .drainEnd (numberOr0 x.entry) (x.kind.getD .work) k.cause k.credited

/-- Step 3 of R46: the pickup flow, when the credited pickup is present (R113). -/
def State.bookPickup (s : State) (k : Closing) : State :=
  match k.credited with
  | some p => s.setBook (s.book.pickupFlow p.toNat)
  | none => s

/-- Step 4 of R46: the credit of the entry's job, and the slots it closed (R147). -/
def State.creditEntry (s : State) (x : CraneContext) (k : Closing) : State × List Nat :=
  match x.job with
  | some j => s.creditJob j.slot x.black k.credited (numberOr0 x.entry)
  | none => (s, [])

/-- The accounting of a WORK or PROGRESSIVE entry (R46), its records in the order of R159. -/
def State.accountWork (s : State) (c : Crane) (x : CraneContext) (k : Closing) : State :=
  let r := (s.bookPickup k).creditEntry x k
  let s1 := r.1.teachClass x.classNo x.snapshot k.sensed
  ((s1.queueRecord (.dip (dipRecord x c k))).announceAll r.2).notifyEntry c x.leads (drainEndNotice x k)

/-- The dross zinc of an accounting: floor(X × dross fraction / 256), 0 when X is absent (R114). -/
def drossZinc (x : Option Int) (fraction : Nat) : Nat :=
  match x with
  | some m => fraction256 m.toNat fraction
  | none => 0

/-- The accounting of a DROSS entry (R47), its records in the order of R159. -/
def State.accountDross (s : State) (c : Crane) (x : CraneContext) (k : Closing) : State :=
  let zc := drossZinc k.credited s.settings.drossFraction
  let own : RecordBody := .dross (numberOr0 x.entry) (cranesOf c x.leads) k.credited zc
  if k.credited.isSome then
    let r := (s.setBook (s.book.drossFlow zc)).allocate zc
    let s1 := r.1.teachClass x.classNo x.snapshot k.sensed
    (((s1.queueRecord own).queueRecord (.allocation zc r.2.1)).announceAll r.2.2).notifyEntry c x.leads
      (drainEndNotice x k)
  else
    ((s.teachClass x.classNo x.snapshot k.sensed).queueRecord own).notifyEntry c x.leads (drainEndNotice x k)

/-- The accounting of an entry whose drain ends or is left (R46, R47), the context then in DRAINED. -/
def State.account (s : State) (c : Crane) (cause : EndCause) (reported : Option Int) : State :=
  let x := s.cranes.get c
  let k := s.closing c cause reported
  let s1 := s.endWatch c k
  match x.kind with
  | some .dross => s1.accountDross c x k
  | _ => s1.accountWork c x k

/-- A drain end, taken only while the context is DRAINING (R45). -/
def State.endDrain (s : State) (c : Crane) (cause : EndCause) (reported : Option Int) : State :=
  if (s.cranes.get c).state = .draining then s.account c cause reported else s

/-! ### LEAVE and DROPPED (R48, R49, R51) -/

/-- A crane entry ends: its lanes are freed, its contexts return to IDLE, its number leaves the live-entry list (R48). -/
def State.endEntry (s : State) (c : Crane) : State :=
  let x := s.cranes.get c
  let n := numberOr0 x.entry
  ({ s with lanes := freeEntry s.lanes n }.idleCranes c x.leads none).dropLive n

/-- LEAVE by a crane (R48, R49). -/
def leaveRule (c : Crane) (s : State) : Reply :=
  let x := s.cranes.get c
  match moveRefusal c s [.drained, .draining] with
  | some st => .refused st
  | none =>
    if x.state = .drained then .done [] (s.endEntry c)
    else
      .done (drainEndBytes (numberOr0 x.entry) (x.kind.getD .work) .earlyLeave (s.closing c .earlyLeave none).credited)
        ((s.account c .earlyLeave none).endEntry c)

/-- The job's part of a DROPPED: the dropped count rises and the open-dip count falls; the slots it closed (R148). -/
def State.dropJob (s : State) (job : Option JobRef) : State × List Nat :=
  match job with
  | some j =>
    (s.modifyJob j.slot fun x => { x with droppedCount := min (x.droppedCount + 1) Config.max16 }).fallOpenDip j.slot
  | none => (s, [])

/-- The changes of a DROPPED (R22, R51). Where misdecoded items have filled the sixteen places of the FOUL region, the item joins
the list as a 17th (log 32). -/
def State.dropPiece (s : State) (c : Crane) : State :=
  let x := s.cranes.get c
  let n := numberOr0 x.entry
  let sp := x.span.getD { f := 0, l := 0 }
  let item : FoulItem := { entry := n, f := sp.f, l := sp.l }
  let s0 : State := { s with lanes := foulEntry s.lanes n, foul := s.foul ++ [item] }
  let s1 := (s0.idleCranes c x.leads none).dropLive n
  let r := s1.dropJob x.job
  (r.1.queueRecord (.dropped n (x.job.map JobRef.number) sp.f sp.l)).announceAll r.2

/-- DROPPED by a crane (R51). -/
def droppedRule (c : Crane) (s : State) : Reply :=
  match moveRefusal c s [.lowering, .immersed, .withdrawing] with
  | some st => .refused st
  | none => .done [] (s.dropPiece c)

/-! ### The class table (R30, R33) -/

/-- The fields of SET CLASS lie in their ranges (R30, section 2.3). -/
def SetClassArgs.inRange (a : SetClassArgs) : Bool :=
  decide (a.number ≤ 15) && decide (1 ≤ a.immLimit) && decide (a.immMin ≤ a.immLimit) &&
    (drainModeOfCode a.drainMode).isSome && (basisOfCode a.basis).isSome && decide (4 ≤ a.window) &&
    decide (a.window ≤ 32) && decide (a.window % 2 = 0)

/-- A change of a drain-defining field: drain mode, B, W or T (R30). -/
def SetClassArgs.redefines (a : SetClassArgs) (k : ClassEntry) : Bool :=
  drainModeOfCode a.drainMode != some k.drainMode || a.blanking != k.blanking || a.window != k.window ||
    a.threshold != k.threshold

/-- The edition after one more change, from 255 on to 0 (R30, R32). -/
def nextEdition (e : Nat) : Nat := (e + 1) % 256

/-- The class with the nine fields taken, its edition raised and its history cleared where a drain-defining field
changes (R30). -/
def SetClassArgs.applyTo (a : SetClassArgs) (k : ClassEntry) : ClassEntry :=
  let k1 : ClassEntry :=
    { k with immMin := a.immMin, immLimit := a.immLimit, drainMode := (drainModeOfCode a.drainMode).getD k.drainMode,
             holdFactor := a.holdFactor, basis := (basisOfCode a.basis).getD k.basis, initialHold := a.initialHold,
             blanking := a.blanking, window := a.window, threshold := a.threshold }
  if a.redefines k then
    { k1 with edition := nextEdition k.edition, count := 0, last := none, prior := none, startRange := 3 }
  else k1

/-- SET CLASS (R30). -/
def setClassRule (body : List Byte) (s : State) : Reply :=
  let a := SetClassArgs.read body
  if a.inRange then
    let k := a.applyTo (s.classAt a.number)
    .done (u8 k.edition) { s with classes := s.classes.set a.number k }
  else .refused .badValue

end Sys2Proof.Machine
end

