-- ==== Sys2Proof/Machine/ModeLogic.lean ====
section
/-! DEFINITION. The mode logic: RESUME, HOLD, the stop input, and TUNE KETTLE (chapter 7). -/

namespace Sys2Proof.Machine

/-! ### RESUME and HOLD (R162, R163) -/

/-- RESUME (R162). -/
def resumeRule (s : State) : Reply :=
  match s.mode with
  | .stopped => .refused .kettleNotRun
  | .run => if s.setup.confirmed then .done [] s else .refused .wrongState
  | .held => if s.setup.confirmed then .done [] (({ s with mode := .run }).notifyAll .resumed) else .refused .wrongState

/-- HOLD (R163). -/
def holdRule (s : State) : Reply :=
  match s.mode with
  | .stopped => .refused .kettleNotRun
  | .run => .done [] { s with mode := .held }
  | .held => .done [] s

/-! ### The stop input (R164 to R166) -/

/-- A context at a fall of the stop input: LOWERING and IMMERSED take STOP_DURING and the cause STOP (R166). -/
def CraneContext.stopped (x : CraneContext) : CraneContext :=
  if x.state = .lowering ∨ x.state = .immersed then { x with flags := x.flags.takeStop, demand := x.demand.takeStop }
  else x

/-- A fall of the stop input taken as an event (R164). The kettle is in RUN or HELD at every fall; a fall reported in
STOPPED changes nothing (log 25). -/
def State.fallStop (s : State) : State :=
  if s.mode = .stopped then s
  else
    ({ s with mode := .stopped
              cranes := ⟨s.cranes.craneA.stopped, s.cranes.craneB.stopped⟩ }).notifyAll (.stopped s.mode)

/-- A rise of the stop input taken as an event (R165). -/
def State.riseStop (s : State) : State := if s.mode = .stopped then { s with mode := .held } else s

/-! ### TUNE KETTLE (R172, R173) -/

/-- The least and the greatest value of a setting (the tables of sections 1.2, 3.4 and 5.3). -/
def settingRange (n : Nat) : Int × Int :=
  match n with
  | 1 => (10, 600)
  | 2 => (4, 16)
  | 3 => (0, 65535)
  | 4 => (0, 65535)
  | 5 => (5, 120)
  | 6 => (1, 240)
  | 7 => (0, 65535)
  | 8 => (0, 16777215)
  | 9 => (0, 16)
  | 10 => (0, 65535)
  | 11 => (1, 65535)
  | 12 => (0, 40000)
  | 13 => (0, 8000)
  | 14 => (0, 8000)
  | 15 => (0, 4294967295)
  | 16 => (0, 256)
  | 17 => (0, 256)
  | 18 => (-8388608, 8388607)
  | 19 => (1, 65535)
  | 20 => (-8388608, 8388607)
  | 21 => (1, 65535)
  | _ => (0, -1)

/-- A pair names a setting and gives it a value in its range (R172). -/
def TunePair.ok (p : TunePair) : Bool :=
  decide (1 ≤ p.number) && decide (p.number ≤ Config.settingCount) && decide ((settingRange p.number).1 ≤ p.value) &&
    decide (p.value ≤ (settingRange p.number).2)

/-- The settings with every pair's value given. -/
def Settings.tuned (t : Settings) (ps : List TunePair) : Settings := ps.foldl (fun t p => t.put p.number p.value) t

/-- The list as a whole passes the tests of R172. -/
def tuneOk (ps : List TunePair) (t : Settings) : Bool :=
  ps.all TunePair.ok && decide ((ps.map TunePair.number).Nodup) && decide ((t.tuned ps).tempLow ≤ (t.tuned ps).tempHigh)

/-- The settings whose value differs (R173). -/
def changedSettings (old new : Settings) : List Nat := settingNumbers.filter fun n => old.get n != new.get n

/-- The level calibration differs: zero or span (R121). -/
def levelRecalibrated (old new : Settings) : Bool :=
  old.levelZero != new.levelZero || old.levelSpan != new.levelSpan

/-- The temperature calibration differs: zero or span (R121). -/
def tempRecalibrated (old new : Settings) : Bool := old.tempZero != new.tempZero || old.tempSpan != new.tempSpan

/-- What a change of calibration does to the scanner and the quiet levels (R121, R173). -/
def State.recalibrate (s : State) (old new : Settings) : State :=
  let s1 : State :=
    if levelRecalibrated old new then
      { s with bath := { s.bath with levels := [] }, recon := { s.recon with quietLevels := 0 } }
    else s
  if tempRecalibrated old new then { s1 with bath := { s1.bath with stored := none, age := 0 } } else s1

/-- The changes of an accepted TUNE KETTLE (R173). -/
def State.tune (s : State) (new : Settings) : State :=
  let s1 := ({ s with settings := new }).recalibrate s.settings new
  if s.settings.feedLow = new.feedLow then s1 else s1.judgeFeed

/-- TUNE KETTLE (R172, R173). -/
def tuneKettleRule (body : List Byte) (s : State) : Reply :=
  let ps := TunePair.readAll body
  if tuneOk ps s.settings then
    .done (u8 (changedSettings s.settings (s.settings.tuned ps)).length) (s.tune (s.settings.tuned ps))
  else .refused .badValue

end Sys2Proof.Machine
end

