-- ==== Sys2Proof/Machine/StoreWords.lean ====
section
/-! DEFINITION. The account store's words: their layout, the words of each item, disturbances and decoding (R189, R191). -/

namespace Sys2Proof.Machine

/-! ### Words and disturbances (R189, R191, log 9) -/

/-- The 39 bits of a word that are in error. -/
def errorCount (bits : WordBits) : Nat := (List.range 39).countP fun i => bits.getLsbD i

/-- The items of the store in region order and, in a region, in its own word order: each block is an item name, how many
items of that name stand one after another, and the words of each (log 9). -/
def storeBlocks : List (StoreKey × Nat × Nat) :=
  ([(.setup, 1, 1)] : List (StoreKey × Nat × Nat)) ++ settingNumbers.map (fun n => (StoreKey.setting n, 1, 1)) ++
    ([(.hook .craneA, 1, 2), (.hook .craneB, 1, 2)] : List (StoreKey × Nat × Nat)) ++
    ((List.range Config.classCount).flatMap fun n =>
      ([(.classFields n, 1, 6), (.classEdition n, 1, 1)] : List (StoreKey × Nat × Nat))) ++
    ((List.range Config.jobCount).map fun n => (StoreKey.job n, 1, 9)) ++
    ([(.period, 1, 129), (.book, 1, 15), (.foul, 16, 1), (.counter, 1, 1), (.live, 1, 3), (.lost, 1, 1),
      (.records, 32, 115)] : List (StoreKey × Nat × Nat))

/-- The words of one item of a name (log 9). -/
def wordsOf (key : StoreKey) : Nat := ((storeBlocks.find? fun b => b.1 == key).map fun b => b.2.2).getD 1

/-- The number of words of a block list. -/
def wordCount (blocks : List (StoreKey × Nat × Nat)) : Nat := (blocks.map fun b => b.2.1 * b.2.2).sum

/-- The word at a place of the scrub's order: item name, position, word of the item. -/
def wordAt : List (StoreKey × Nat × Nat) → Nat → Option (StoreKey × Nat × Nat)
  | [], _ => none
  | b :: bs, i => if i < b.2.1 * b.2.2 then some (b.1, i / b.2.2, i % b.2.2) else wordAt bs (i - b.2.1 * b.2.2)

/-- A word that stands as it was written is not listed. -/
def BadWord.listed (b : BadWord) : Option BadWord := if b.wrong = 0 ∧ b.bits = 0 then none else some b

/-- A disturbance strikes a word. -/
def sameWord (b : BadWord) (u : Upset) : Bool := b.key == u.key && b.pos == u.pos && b.word == u.word

/-- One word disturbed: its bits in error change where the disturbance flips them. -/
def upsetWord (flips : List BadWord) (u : Upset) : List BadWord :=
  let found := flips.find? fun b => sameWord b u
  let after : BadWord :=
    { key := u.key, pos := u.pos, word := u.word, wrong := found.elim 0 BadWord.wrong
      bits := found.elim 0 BadWord.bits ^^^ u.bits }
  after.listed.toList ++ flips.filter fun b => !sameWord b u

/-- The store with its words disturbed. -/
def Store.disturb (st : Store) (us : List Upset) : Store := { st with flips := us.foldl upsetWord st.flips }

/-! ### Items word by word (R189, log 9) -/

/-- A 48-bit total of which one word holds the low 32 bits and another the rest. -/
def joinNat (lo hi : Nat) : Nat := hi / 4294967296 * 4294967296 + lo % 4294967296

/-- The same of a signed total. -/
def joinInt (lo hi : Int) : Int := hi / 4294967296 * 4294967296 + lo % 4294967296

/-- A hook item of its two words. -/
def Calibration.ofWords (w : Nat → Calibration) : Calibration :=
  { zero := (w 0).zero, calibrated := (w 0).calibrated, span := (w 1).span }

/-- A class entry of its six words, without its edition (R29). -/
def ClassEntry.ofWords (edition : Nat) (w : Nat → ClassEntry) : ClassEntry :=
  { edition := edition
    immMin := (w 0).immMin, immLimit := (w 0).immLimit
    drainMode := (w 1).drainMode, holdFactor := (w 1).holdFactor, basis := (w 1).basis, blanking := (w 1).blanking
    window := (w 1).window
    initialHold := (w 2).initialHold, threshold := (w 2).threshold
    last := (w 3).last
    prior := (w 4).prior
    count := (w 5).count, startRange := (w 5).startRange }

/-- A job slot of its nine words. -/
def JobSlot.ofWords (w : Nat → JobSlot) : JobSlot :=
  { state := (w 0).state, number := (w 0).number, defaultClass := (w 0).defaultClass
    blackTotal := joinInt (w 1).blackTotal (w 2).blackTotal, firstEntry := (w 2).firstEntry
    pickupTotal := joinNat (w 3).pickupTotal (w 4).pickupTotal, lastEntry := (w 4).lastEntry
    drossShare := joinNat (w 5).drossShare (w 6).drossShare, noMassCount := (w 6).noMassCount
    dipCount := (w 7).dipCount, droppedCount := (w 7).droppedCount
    openDips := (w 8).openDips, drossUnallocated := (w 8).drossUnallocated }

/-- The book of its fifteen words. -/
def Book.ofWords (w : Nat → Book) : Book :=
  { mass := (w 0).mass
    state := (w 1).state, saturated := (w 1).saturated
    opening := (w 2).opening
    charged := joinNat (w 3).charged (w 4).charged
    picked := joinNat (w 5).picked (w 6).picked
    dross := joinNat (w 7).dross (w 8).dross
    ash := joinNat (w 9).ash (w 10).ash
    unallocated := joinNat (w 11).unallocated (w 12).unallocated
    adjusted := joinInt (w 13).adjusted (w 14).adjusted }

/-- The period list of its words: how many entries it has, and then two words of each; the words past its entries hold 0. -/
def periodOfWords (w : Nat → List PeriodEntry) : List PeriodEntry :=
  (List.range (w 0).length).map fun i =>
    let entry := fun k : Nat => ((w k)[i]?).getD { slot := 0, black := 0 }
    { slot := (entry (2 * i + 2)).slot, black := joinNat (entry (2 * i + 1)).black (entry (2 * i + 2)).black }

/-- The live-entry list of its words, one for each place of it. -/
def liveOfWords (w : Nat → List LiveEntry) : List LiveEntry :=
  ((List.range 3).filterMap fun i => (w i)[i]?) ++ (w 2).drop 3

/-- An image with one item put together of its words, each word as it stands in the image that `w` names for it. The FOUL
items and the records are lists of items and stay. -/
def StoreImage.weave (dst : StoreImage) (key : StoreKey) (w : Nat → StoreImage) : StoreImage :=
  match key with
  | .setup | .setting _ | .classEdition _ | .counter | .lost => dst.putItem (w 0) key
  | .hook h => { dst with hooks := dst.hooks.set h (Calibration.ofWords fun i => (w i).hooks.get h) }
  | .classFields n =>
    match dst.classes[n]? with
    | some d =>
      { dst with classes := dst.classes.set n (ClassEntry.ofWords d.edition fun i => ((w i).classes[n]?).getD d) }
    | none => dst
  | .job n =>
    match dst.jobs[n]? with
    | some d => { dst with jobs := dst.jobs.set n (JobSlot.ofWords fun i => ((w i).jobs[n]?).getD d) }
    | none => dst
  | .period => { dst with period := periodOfWords fun i => (w i).period }
  | .book => { dst with book := Book.ofWords fun i => (w i).book }
  | .live => { dst with live := liveOfWords fun i => (w i).live }
  | .foul | .records => dst

/-- An image with some words of one item taken from another. -/
def StoreImage.withWords (dst src : StoreImage) (key : StoreKey) (pick : Nat → Bool) : StoreImage :=
  dst.weave key fun i => if pick i then src else dst

/-- A change of an item alters a word of it (R190). -/
def altersWord (old new : StoreImage) (key : StoreKey) (word : Nat) : Bool :=
  if key = .lost then word == 0 && old.records.lost != new.records.lost
  else !sameItem (old.withWords new key fun i => i == word) old key || !sameItem (new.withWords old key fun i => i == word) new key

/-! ### Decoding (R189, R191) -/

/-- What a word with the given bits in error decodes as (R191); with three or more of them a free value (log 10). -/
def decodeWord (bits : WordBits) : Config.Decoding :=
  match errorCount bits with
  | 0 => .sound
  | 1 => .corrected
  | 2 => .damaged
  | _ => Config.manyBitDecode bits

/-- The bits in which the data of a word, as it is read, differs with its check bits from what was written: none, or what a wrong
correction has left; and of three or more bits in error that do not decode as damaged also these, less the one put right where they
decode as corrected (R191, log 10). -/
def BadWord.reads (b : BadWord) : WordBits :=
  if errorCount b.bits ≤ 2 then b.wrong
  else if decodeWord b.bits = .corrected then b.wrong ^^^ b.bits ^^^ (1 <<< (Config.manyBitFix b.bits % 39))
  else b.wrong ^^^ b.bits

/-- An entry of a list read with its words: `none` when a word of it decodes as damaged; where words read otherwise than
they were written, the value read is a free value (R191, log 10). -/
def readWords {α : Type} (v : α) (words : List BadWord) : Option α :=
  let wrong := (words.map fun b => (b.word, b.reads)).filter fun w => w.2 != 0
  if words.any (fun b => decodeWord b.bits == .damaged) then none
  else if wrong.isEmpty then some v
  else some ((Config.manyBitRead v wrong).getD v)

/-- The words of one item that do not stand as written. -/
def Store.wordsIn (st : Store) (key : StoreKey) (pos : Nat) : List BadWord :=
  st.flips.filter fun b => b.key == key && b.pos == pos

/-- An entry of a list in the store read (R191). -/
def Store.readEntry {α : Type} (st : Store) (key : StoreKey) (pos : Nat) (v : α) : Option α :=
  readWords v (st.wordsIn key pos)

/-- An item read that is no list's entry: `none` when a word of it decodes as damaged, and otherwise the value given (R191). -/
def Store.readItem {α : Type} (st : Store) (key : StoreKey) (v : α) : Option α :=
  if (st.wordsIn key 0).any fun b => decodeWord b.bits == .damaged then none else some v

/-- The values that the words give which do not decode as damaged: a word that reads otherwise than it was written gives a free
value, and every other word its own data (R191, log 10). -/
def Store.misread (st : Store) : StoreImage :=
  (st.flips.filter fun b => decodeWord b.bits != .damaged && b.reads != 0).foldl (fun img b =>
    img.withWords ((Config.manyBitRead st.image [(b.word, b.reads)]).getD st.image) b.key fun i => i == b.word) st.image

/-- A word after it has been read: where it decodes as corrected it is written back with the data read and check bits that agree
(R191), and from then on it reads sound. -/
def BadWord.reread (b : BadWord) : BadWord :=
  if decodeWord b.bits = .corrected then { b with wrong := b.reads, bits := 0 } else b

/-- The store after the words that `read` picks have been read, those decoding as corrected being written back (R191). -/
def Store.rereadWords (st : Store) (read : BadWord → Bool) : Store :=
  { st with flips := st.flips.filterMap fun b => if read b then b.reread.listed else some b }

end Sys2Proof.Machine
end

