-- ==== Sys2Proof/Machine/AccountStore.lean ====
section
/-! DEFINITION. The account store over its words: the scrub, the flush, the collapse of the supply, and restart (chapter 9). -/

namespace Sys2Proof.Machine

/-! ### The scrub (R192) -/

/-- A word is the one at a place of the scrub's order. -/
def atWord (u : BadWord) (w : StoreKey × Nat × Nat) : Bool := u.key == w.1 && u.pos == w.2.1 && u.word == w.2.2

/-- The scrub's visit of one word: a sound word is left; a corrected one is written back with its correction; a damaged one is
written back from the working copy (R192). A record and a FOUL item are stored as their working copies stand, since they join
at the tail and leave by requests, whose writes are never due (R22, R23, R177, R190). -/
def Store.scrubWord (st : Store) (src : StoreImage) (w : StoreKey × Nat × Nat) : Store :=
  if st.flips.any (fun u => atWord u w && decodeWord u.bits == .damaged) then
    { image := st.image.withWords src w.1 fun i => i == w.2.2, flips := st.flips.filter fun u => !atWord u w }
  else st.rereadWords fun u => atWord u w

/-- The scrub reads one word at a bath scan, in a fixed order that goes on from the first word after the last (R192). -/
def State.scrub (s : State) : State :=
  { s with store := (wordAt storeBlocks s.scrubAt).elim s.store (s.store.scrubWord s.image)
           scrubAt := (s.scrubAt + 1) % wordCount storeBlocks }

/-! ### The flush (R193) -/

/-- An engine that has dropped its transfer (R193, step 1). -/
def Engine.dropTransfer (e : Engine) : Engine :=
  { e with transfer := .idle, rx := ReceiveBuffer.empty, stretch := .none, tx := [] }

/-- The four engines with their transfers dropped. -/
def PerPort.dropTransfers (es : PerPort Engine) : PerPort Engine :=
  ⟨es.craneA.dropTransfer, es.craneB.dropTransfer, es.feed.dropTransfer, es.office.dropTransfer⟩

/-- The store when the flush has completed its writes (R193, steps 3 and 4). -/
def FlushWork.finished (w : FlushWork) : Store := (w.steps.foldl Store.makeStep w.store).make w.last

/-- What the flush of a part has to write: the steps outstanding, then the live-entry list (R193, steps 3 and 4). `found` is
the store as the flush found it and `steps` the steps whose writes were outstanding. -/
def State.flushWork (s : State) (found : Store) (steps : List (List StepWrites)) : FlushWork :=
  { store := found, steps := steps, last := { image := s.image, keys := [.live] } }

/-- The flush of a part with no PENDING request left: the writes completed, the part stopped, its lines held (R193). -/
def State.flushed (s : State) (w : FlushWork) : State :=
  { s with
    phase := .flushed
    engines := s.engines.dropTransfers
    lines := Lines.down
    store := w.finished
    unsaved := []
    flush := some w }

/-! ### Items of a list with their words in error (R22, R177, log 13) -/

/-- An item of a list with its words that do not stand as written. -/
abbrev Marked (α : Type) : Type := α × List BadWord

/-- The items of a list in the store, each with its words in error. -/
def Store.marked {α : Type} (st : Store) (key : StoreKey) (items : List α) : List (Marked α) :=
  items.zipIdx.map fun p => (p.1, st.wordsIn key p.2)

/-- The words in error of the items of a list, each at its item's position. -/
def badWordsOf {α : Type} (items : List (Marked α)) : List BadWord :=
  items.zipIdx.flatMap fun p => p.1.2.map fun b => { b with pos := p.2 }

/-- The store with the records, and their words in error, replaced. -/
def Store.setRecords (st : Store) (items : List (Marked Record)) : Store :=
  { image := { st.image with records := { st.image.records with items := items.map Prod.fst } }
    flips := (st.flips.filter fun u => u.key != .records) ++ badWordsOf items }

/-- The store with the FOUL items, and their words in error, replaced. -/
def Store.setFoul (st : Store) (items : List (Marked FoulItem)) : Store :=
  { image := { st.image with foul := items.map Prod.fst }
    flips := (st.flips.filter fun u => u.key != .foul) ++ badWordsOf items }

/-! ### A supply that collapses too soon (R200) -/

/-- A word of an item as its tear leaves it, where that is not as its new value was written: with its old value as it stood among
`found`, or with the given bits in error (R200). -/
def tornWord (key : StoreKey) (found : List BadWord) (w : WordTear) : Option BadWord :=
  match w.fate with
  | .kept => found.find? fun b => b.word == w.word
  | .mixed bits => ({ key := key, pos := 0, word := w.word, wrong := 0, bits := bits } : BadWord).listed

/-- What an image holds for a word whose write was cut off (R200): `new` where the tear does not name the word. -/
def wordAfter (old new free : StoreImage) (words : List WordTear) (i : Nat) : StoreImage :=
  match words.find? fun w => w.word == i with
  | none => new
  | some { fate := .kept, .. } => old
  | some { fate := .mixed _, .. } => free

/-- An item whose words were being written (R200). A word that the change does not alter is not written and stays as it was; of the
others, each holds its new value, its old one with the bits that it had in error, or a mixture, which is a free value with the
given bits in error (log 12). -/
def Store.tearItem (st : Store) (src : StoreImage) (key : StoreKey) (words : List WordTear) : Store :=
  let free := (Config.tornValue st.image src words).getD st.image
  let altered := words.filter fun w => altersWord st.image src key w.word
  { image := st.image.weave key fun i =>
      if altersWord st.image src key i then wordAfter st.image src free words i else st.image
    flips := (st.flips.filter fun b => b.key != key || !altersWord st.image src key b.word) ++
      altered.filterMap (tornWord key (st.wordsIn key 0)) }

/-- A list's entry that was being put in or taken out, of `size` words (R200): with no word torn, as the change leaves it; with every
word still old, as it stood; otherwise a mixture, which is an entry with a free value, or none, with its words as they are torn
(log 12). -/
def tornEntry {α : Type} (key : StoreKey) (size : Nat) (old new : Option (Marked α)) (words : List WordTear) :
    List (Marked α) :=
  let torn := words.filter fun w => decide (w.word < size)
  if torn.isEmpty then new.toList
  else if (List.range size).all fun i => torn.contains { word := i, fate := .kept } then old.toList
  else (((Config.tornValue (old.map Prod.fst) (new.map Prod.fst) torn).join).map fun v =>
    (v, torn.filterMap (tornWord key ((old.map Prod.snd).getD [])))).toList

/-- A list whose change was cut off: `removed` are the positions that the change takes out, `joined` the items that it puts in at
the tail, of which the first ones are done and the next one was being written. -/
def tornList {α : Type} (key : StoreKey) (old : List (Marked α)) (removed : List Nat) (joined : List α) (tear : ItemTear) :
    List (Marked α) :=
  let entry := tornEntry (α := α) key (wordsOf key)
  (old.zipIdx.flatMap fun p =>
    if (removed.take tear.edits).contains p.2 then []
    else if removed[tear.edits]? = some p.2 then entry (some p.1) none tear.words
    else [p.1]) ++
  (joined.take (tear.edits - removed.length)).map (fun v => (v, [])) ++
  match (if removed.length ≤ tear.edits then joined[tear.edits - removed.length]? else none) with
  | some v => entry none (some (v, [])) tear.words
  | none => []

/-- The positions of the FOUL items that a change takes out. -/
def foulRemoved (old new : List FoulItem) : List Nat :=
  old.zipIdx.filterMap fun p => if new.contains p.1 then none else some p.2

/-- The write of one item cut off (R200): of a list only the one item being taken out or put in is torn. -/
def Store.tear (st : Store) (src : StoreImage) (key : StoreKey) (x : ItemTear) : Store :=
  match key with
  | .records =>
    let old := st.image.records.items
    let gone := headTaken old src.records.items
    st.setRecords (tornList .records (st.marked .records old) (List.range gone) (src.records.items.drop (old.length - gone)) x)
  | .foul =>
    let old := st.image.foul
    let gone := foulRemoved old src.foul
    st.setFoul (tornList .foul (st.marked .foul old) gone (src.foul.drop (old.length - gone.length)) x)
  | _ => st.tearItem src key x.words

/-- The single writes of a step, in their order. -/
def putsOf (ws : List StepWrites) : List (StoreImage × StoreKey) := ws.flatMap fun w => w.keys.map fun k => (w.image, k)

/-- The writes of one step as far as they had come (R190, R200): its first items written, the next one torn, the later ones
as they were. -/
def Store.makePart (st : Store) (ws : List StepWrites) (t : StepTear) : Store :=
  let st1 := ((putsOf ws).take t.written).foldl (fun st p => st.write p.1 p.2) st
  match (putsOf ws)[t.written]?, t.torn with
  | some p, some x => st1.tear p.1 p.2 x
  | _, _ => st1

/-- Nothing of a step is left to write. -/
def wholeStep (t : StepTear) (ws : List StepWrites) : Bool := decide ((putsOf ws).length ≤ t.written)

/-- The store as the collapse leaves it (R200): each step as far as it had come, and the live-entry list, which the flush writes
after all of them (R193), as it was unless every step was whole. -/
def FlushWork.torn (w : FlushWork) (tears : List StepTear) : Store :=
  let far := fun (n : Nat) (ws : List StepWrites) => (tears[n]?).getD { written := (putsOf ws).length, torn := none }
  let st := w.steps.zipIdx.foldl (fun st p => st.makePart p.1 (far p.2 p.1)) w.store
  if w.steps.zipIdx.all fun p => wholeStep (far p.2 p.1) p.1 then st.makePart [w.last] (far w.steps.length [w.last]) else st

/-- The supply has collapsed on a stopped part: what the flush was writing is torn, once (R200). -/
def State.collapse (s : State) (tears : List StepTear) : State :=
  match s.flush with
  | none => { s with inputs := { s.inputs with supplyLost := true } }
  | some w => { s with inputs := { s.inputs with supplyLost := true }, store := w.torn tears, flush := none }

/-! ### Restart: reading the regions (R195, R196) -/

/-- What restart read: the value every item takes, and the damaged item list. -/
structure Restored where
  image   : StoreImage
  damaged : List DamagedItem
  deriving DecidableEq, Repr

/-- An entry of the damaged item list for an item that read damaged (R196). -/
def damageEntry (region index : Nat) (bad : Bool) : List DamagedItem :=
  if bad then [{ region := region, index := index }] else []

/-- A setting word read: its value, or its default (R174). -/
def Store.readSetting (st : Store) (n : Nat) : Option Int := st.readItem (.setting n) (st.misread.settings.get n)

/-- The settings of the numbers given read: a damaged word gives its default (R174). -/
def Store.readSome (st : Store) (numbers : List Nat) : Settings :=
  numbers.foldl (fun t n => t.put n ((st.readSetting n).getD (Settings.default.get n))) st.image.settings

/-- A temperature window left inverted gives both bounds their defaults (R174). -/
def Settings.upright (t : Settings) : Settings :=
  if t.tempHigh < t.tempLow then
    { t with tempLow := Settings.default.tempLow, tempHigh := Settings.default.tempHigh }
  else t

/-- The settings as restart leaves them (R174). -/
def Store.readSettings (st : Store) : Settings := (st.readSome settingNumbers).upright

/-- A class entry as restart leaves it (R32). -/
def classRestored (fields : Option ClassEntry) (edition : Option Nat) : ClassEntry :=
  match fields, edition with
  | some k, some e => { k with edition := e }
  | none, some e => ClassEntry.factory (nextEdition e)
  | some k, none => { k with edition := 1 }
  | none, none => ClassEntry.factory 1

/-- The fields and the edition of a class read (R32). -/
def Store.readClass (st : Store) (n : Nat) (k : ClassEntry) : Option ClassEntry × Option Nat :=
  (st.readItem (.classFields n) k, st.readItem (.classEdition n) k.edition)

/-- A class read from the store is damaged (R32, R196). -/
def classBad (r : Option ClassEntry × Option Nat) : Bool := r.1.isNone || r.2.isNone

/-- A job slot as restart leaves it: DAMAGED, or as stored with open-dip count 0 (R136). -/
def slotRestored (j : Option JobSlot) : JobSlot :=
  match j with
  | some j => { j with openDips := 0 }
  | none => JobSlot.vacant .damaged

/-- The period list without the entries that name a slot not OPEN or CLOSING (R152). -/
def prunePeriod (period : List PeriodEntry) (jobs : List JobSlot) : List PeriodEntry :=
  period.filter fun e =>
    let st := (jobs.getD e.slot (JobSlot.vacant .free)).state
    st == .opened || st == .closing

/-- The items of a list with their positions, each read (R24, R179). -/
def Store.readList {α : Type} (st : Store) (key : StoreKey) (items : List α) : List (Option α) :=
  items.zipIdx.map fun p => st.readEntry key p.2 p.1

/-- The positions of the items of a list that read damaged. -/
def badPositions {α : Type} (items : List (Option α)) : List Nat :=
  items.zipIdx.filterMap fun p => if p.1.isNone then some p.2 else none

/-- The record queue as restart leaves it (R179): damaged records dropped and counted, a damaged lost count 65,535. -/
def recordsRestored (items : List (Option Record)) (lost : Option Nat) (offered : Nat) : RecordQueue :=
  { items := items.filterMap id
    lost := min (lost.getD Config.max16 + (badPositions items).length) Config.max16
    offered := offered }

/-- The regions read in order (R195). Each list region holds as many items as it has room for (section 9.1): a 17th FOUL item is
not read (log 32). A place of these lists that holds no item is not read, whatever its words hold (log 9). -/
def Store.restore (st : Store) : Restored :=
  let img := st.misread
  let setup := st.readItem .setup img.setup
  let hookA := st.readItem (.hook .craneA) img.hooks.craneA
  let hookB := st.readItem (.hook .craneB) img.hooks.craneB
  let classes := img.classes.zipIdx.map fun p => st.readClass p.2 p.1
  let slots := img.jobs.zipIdx.map fun p => st.readItem (.job p.2) p.1
  let period := st.readItem .period img.period
  let book := st.readItem .book img.book
  let foul := st.readList .foul (st.image.foul.take 16)
  let counter := st.readItem .counter img.counter
  let live := st.readItem .live img.live
  let lost := st.readItem .lost img.records.lost
  let records := st.readList .records (st.image.records.items.take Config.recordRoom)
  let jobs := slots.map slotRestored
  { image :=
      { setup := setup.getD (Setup.default false)
        settings := st.readSettings
        hooks := ⟨hookA.getD Calibration.defaulted, hookB.getD Calibration.defaulted⟩
        classes := classes.map fun r => classRestored r.1 r.2
        jobs := jobs
        period := prunePeriod ((period.getD []).take 64) jobs
        book := book.getD Book.blank
        foul := foul.filterMap id
        counter := counter.getD 1
        live := (live.getD []).take 3
        records := recordsRestored records lost st.image.records.offered }
    damaged :=
      damageEntry 1 0 setup.isNone ++
        (settingNumbers.flatMap fun n => damageEntry 1 n (st.readSetting n).isNone) ++
        damageEntry 2 0 hookA.isNone ++ damageEntry 2 1 hookB.isNone ++
        (classes.zipIdx.flatMap fun p => damageEntry 3 p.2 (classBad p.1)) ++
        (slots.zipIdx.flatMap fun p => damageEntry 4 p.2 p.1.isNone) ++
        damageEntry 5 0 period.isNone ++ damageEntry 6 0 book.isNone ++
        ((badPositions foul).map fun i => { region := 7, index := i }) ++
        damageEntry 8 0 counter.isNone ++ damageEntry 9 0 live.isNone ++
        damageEntry 10 (badPositions records).length (lost.isNone || records.any Option.isNone) }

/-! ### Restart: its end (R198, R199) -/

/-- The lane map rebuilt from the FOUL items (R2, R24). Where two items cover one lane, as a misdecoded word (R191) can make
them do, the spec does not say whose number the lane takes: the later item's (log 30). A misdecoded item with f above l, or with
an index above 15, covers the lanes from f to l that there are, and stays an item where there is none (log 32). -/
def lanesRestored (foul : List FoulItem) : List Lane :=
  foul.foldl (fun lanes it => takeSpan lanes { f := it.f, l := it.l } .foul it.entry) freeLanes

/-- Step 1 of R198: the RESTART record is queued and the live-entry list emptied, in one store step. -/
def Restored.ended (r : Restored) : StoreImage :=
  { r.image with records := r.image.records.push (.restart r.image.live r.damaged), live := [] }

/-- The regions that the damaged item list enters, in order (R196). -/
def damagedRegions (damaged : List DamagedItem) : List Nat :=
  ((List.range 10).map (· + 1)).filter fun c => damaged.any fun d => d.region == c

/-- Steps 2 of R198: every volatile state at its restart value over the restored items, the lines still held. -/
def State.revived (s : State) (img : StoreImage) (damaged : List DamagedItem) : State :=
  { phase := .running
    inputs := s.inputs
    mode := .held
    lanes := lanesRestored img.foul
    setup := img.setup
    settings := img.settings
    cranes := ⟨CraneContext.idle none, CraneContext.idle none⟩
    feed := FeedContext.idle none
    counter := img.counter
    live := img.live
    foul := img.foul
    classes := img.classes
    jobs := img.jobs
    period := img.period
    hooks := ⟨Hook.restarted img.hooks.craneA, Hook.restarted img.hooks.craneB⟩
    watches := ⟨Watch.inactive, Watch.inactive⟩
    timers := ⟨DrainTimer.idle, DrainTimer.idle⟩
    bath := BathScanner.restarted
    book := img.book
    recon := Reconcile.restarted
    records := img.records
    notices := ⟨NoticeQueue.empty, NoticeQueue.empty, NoticeQueue.empty, NoticeQueue.empty⟩
    engines := ⟨Engine.restarted, Engine.restarted, Engine.restarted, Engine.restarted⟩
    damage := damagedRegions damaged
    lines := Lines.down
    store := { image := img, flips := [] }
    unsaved := []
    scrubAt := 0
    flush := none
    pending := s.pending }

/-- The HOOK_FAULT notice of a DEFAULTED hook (R60). -/
def State.noticeDefaulted (s : State) (c : Crane) : State :=
  if (s.hooks.get c).cal.calibrated then s else s.notify c.port (.hookFault c)

/-- The BOOK_INVALID notices of an INVALID book (R106). -/
def State.noticeInvalid (s : State) : State :=
  if s.book.state = .invalid then (s.notify .feed .bookInvalid).notify .office .bookInvalid else s

/-- The STORE_DAMAGE notice of a damaged item list that is not empty (R196). -/
def State.noticeDamage (s : State) (count : Nat) : State :=
  if count = 0 then s else s.notify .office (.storeDamage count)

/-- Steps 3 to 5 of R198: the restart notices in the order of R186, the stop input, the lines released. -/
def State.released (s : State) (count : Nat) : State :=
  let s1 := ((((s.noticeDefaulted .craneA).noticeDefaulted .craneB).noticeInvalid).noticeDamage count).judgeFeed
  (if s.inputs.stopLow then s1.fallStop else s1).judgeLines

/-- A restart that runs to its end (R195, R198). -/
def State.restartWhole (s : State) : State :=
  let r := s.store.restore
  (s.revived r.ended r.damaged).released r.damaged.length

/-! ### A restart stopped where it stands (R194) -/

/-- The region of an item (section 9.1). -/
def regionOf : StoreKey → Nat
  | .setup | .setting _ => 1
  | .hook _ => 2
  | .classFields _ | .classEdition _ => 3
  | .job _ => 4
  | .period => 5
  | .book => 6
  | .foul => 7
  | .counter => 8
  | .live => 9
  | .lost | .records => 10

/-- An item as restart reads it (R195): its names in the store (a class has its fields and its edition) and its position. -/
structure RestartItem where
  keys : List StoreKey
  pos  : Nat
  deriving DecidableEq, Repr

/-- The items in the order in which restart reads them (R195, R179), each list with every place it has. -/
def restartItems : List RestartItem :=
  let one := fun k : StoreKey => ({ keys := [k], pos := 0 } : RestartItem)
  [one .setup] ++ settingNumbers.map (fun n => one (.setting n)) ++ [one (.hook .craneA), one (.hook .craneB)] ++
    (List.range Config.classCount).map (fun n => { keys := [.classFields n, .classEdition n], pos := 0 }) ++
    (List.range Config.jobCount).map (fun n => one (.job n)) ++ [one .period, one .book] ++
    (List.range 16).map (fun i => { keys := [.foul], pos := i }) ++ [one .counter, one .live, one .lost] ++
    (List.range Config.recordRoom).map fun i => { keys := [.records], pos := i }

/-- The words of an item in their order: item name and word. -/
def RestartItem.words (it : RestartItem) : List (StoreKey × Nat) :=
  it.keys.flatMap fun k => (List.range (wordsOf k)).map fun w => (k, w)

/-- How many places of a list are among items. -/
def placesOf (key : StoreKey) (items : List RestartItem) : Nat := items.countP fun it => it.keys == [key]

/-- The item of a list that restart has read in part: its first `words` words read, the corrected ones written back; and, when it
is damaged and all were read, taken out of the list by one more write, which a cut finds finished (R179, R194, log 17). -/
def rereadEntry {α : Type} (x : Marked α) (size words : Nat) : List (Marked α) :=
  if size < words ∧ (readWords x.1 x.2).isSome = false then []
  else [(x.1, x.2.filterMap fun b => if b.word < words then b.reread.listed else some b)]

/-- A list of which restart has read some places and part of the next (R24, R179, R194). -/
def rereadList {α : Type} (xs : List (Marked α)) (places size words : Nat) : List (Marked α) :=
  ((xs.take places).filterMap fun x => (readWords x.1 x.2).map fun v => (v, [])) ++
    (match (xs.drop places).head? with
      | some x => if words = 0 then [x] else rereadEntry x size words
      | none => []) ++
    (xs.drop places).tail

/-- The values that restart gives the items, of which it has read those in `done`: the window of the temperature is judged once
every setting is read (R174), and a window left inverted has both words replaced with that read, so that no cut falls between
them (log 17). -/
def Store.restoredBy (st : Store) (done : List RestartItem) : StoreImage :=
  if settingNumbers.all (fun n => done.any fun it => it.keys == [.setting n]) then st.restore.image
  else { st.restore.image with settings := st.readSome settingNumbers }

/-- The items that `keys` names, other than the places of a list, with their restored values and no word in error. -/
def Store.repairKeys (st : Store) (r : StoreImage) (keys : List StoreKey) : Store :=
  { image := keys.foldl (fun d k => d.putItem r k) st.image, flips := st.flips.filter fun u => !keys.contains u.key }

/-- A damaged item, of which restart has replaced its first `words` words: each of them whole, and the later ones as they were
(R194, R195). -/
def Store.replacePart (st : Store) (r : StoreImage) (it : RestartItem) (words : Nat) : Store :=
  let put := it.words.take words
  { image := it.keys.foldl (fun img k => img.withWords r k fun i => put.contains (k, i)) st.image
    flips := st.flips.filter fun u => !put.contains (u.key, u.word) }

/-- The item that restart was reading, with `words` word steps of it made: each word read, corrected ones written back; and then,
when it is damaged, each word replaced (R194, R195, log 17). -/
def Store.readPart (st : Store) (r : StoreImage) (it : RestartItem) (words : Nat) : Store :=
  let read := (it.words.take words)
  let st1 := st.rereadWords fun u => u.pos == it.pos && read.contains (u.key, u.word)
  if st.flips.any (fun u => it.keys.contains u.key && u.pos == it.pos && decodeWord u.bits == .damaged) then
    st1.replacePart r it (words - it.words.length)
  else st1

/-- The lists as a restart stopped where it stands leaves them: FOUL items and records restored or dropped as far as it had read,
and the lost count raised by the records that it dropped (R24, R179, R194). -/
def Store.repairLists (st : Store) (after words : Nat) : Store :=
  let done := restartItems.take after
  let part := fun key : StoreKey => if (restartItems[after]?).any (fun it => it.keys == [key]) then words else 0
  let foul := rereadList (st.marked .foul st.image.foul) (placesOf .foul done) (wordsOf .foul) (part .foul)
  let records := rereadList (st.marked .records st.image.records.items) (placesOf .records done) (wordsOf .records)
    (part .records)
  let st1 := (st.setFoul foul).setRecords records
  if done.any (fun it => it.keys == [.lost]) then
    let lost := (st.readItem .lost st.misread.records.lost).getD Config.max16
    let gone := st.image.records.items.length - records.length
    { image := { st1.image with records := { st1.image.records with lost := min (lost + gone) Config.max16 } }
      flips := st1.flips.filter fun u => u.key != .lost }
  else st1

/-- The store when a restart is stopped where it stands (R194): the items read before stand restored or replaced, the next one as
far as its words had come, the others as they were. -/
def Store.repairedTo (st : Store) (after words : Nat) : Store :=
  let done := restartItems.take after
  let r := st.restoredBy done
  let lists : List StoreKey := [.foul, .lost, .records]
  let single := (done.flatMap RestartItem.keys).filter fun k => !lists.contains k
  let st1 := (st.repairLists after words).repairKeys r single
  match restartItems[after]? with
  | some it => if it.keys == [.foul] || it.keys == [.records] then st1 else st1.readPart r it words
  | none => st1

/-- The store that a cut restart leaves (R194, R198): after step 1 of the end the RESTART record stands and the live-entry
list is empty. -/
def Store.cutAt (st : Store) (after words : Nat) : Store :=
  if after ≤ restartItems.length then st.repairedTo after words else { image := st.restore.ended, flips := [] }

/-- The inputs with the one that cut a restart short. -/
def Inputs.cutBy (i : Inputs) : CutCause → Inputs
  | .supplyFail => { i with supFailLow := true }
  | .reset => { i with resetAsserted := true }

/-- Restart, of a store with its disturbed words: whole, or stopped where it stands (R194, R195). -/
def State.restart (s : State) (upsets : List Upset) (cut : Option RestartCut) : State :=
  let s1 := { s with store := s.store.disturb upsets }
  match cut with
  | none => s1.restartWhole
  | some k => { s1 with store := s1.store.cutAt k.after k.words, inputs := s1.inputs.cutBy k.cause, flush := none }

end Sys2Proof.Machine
end

