-- ==== Sys2Proof/Machine/Events.lean ====
section
/-! DEFINITION. The events that no station writes: load scans and bath scans, timer ticks and expiries, the end of blanking,
and the stop input. Each is taken only while the part runs (R193). -/

namespace Sys2Proof.Machine

/-- An event taken while the part runs; a part stopped by a flush takes none (R193, step 2). -/
def State.whileRunning (s : State) (act : State → State) : State := if s.phase = .running then act s else s

/-! ### Load scans (R56 to R73, R92 to R94) -/

/-- The HOOK_FAULT notice of a hook: to its crane, or to both cranes while a tandem entry is live (R59). -/
def State.noticeFault (s : State) (hook : Crane) : State :=
  if s.cranes.craneA.leads then (s.notify .craneA (.hookFault hook)).notify .craneB (.hookFault hook)
  else s.notify hook.port (.hookFault hook)

/-- A watch after a hook has entered FAULT: shut when it uses the hook (R72). -/
def shutFor (hook owner : Crane) (w : Watch) : Watch := if w.uses owner hook then w.shutIt else w

/-- A hook enters FAULT: the watches that use it are shut and the notice is queued (R59, R72). -/
def State.faultHook (s : State) (hook : Crane) : State :=
  ({ s with watches := ⟨shutFor hook .craneA s.watches.craneA, shutFor hook .craneB s.watches.craneB⟩ }).noticeFault hook

/-- One hook's stages of a load scan (R56 to R63). -/
def State.scanHook (s : State) (hook : Crane) (r : Reading) : State :=
  let h := (s.hooks.get hook).scan s.settings r
  let s1 := { s with hooks := s.hooks.set hook h }
  if faultedAt (s.hooks.get hook) h then s1.faultHook hook else s1

/-- The blanking mark of a timer is ENDED (R92). -/
def State.endBlanking (s : State) (c : Crane) : State :=
  { s with timers := s.timers.set c { s.timers.get c with inBlanking := false } }

/-- What a timer's step does to its drain: the timer takes its new values, and the drain ends with the cause given, if any
(R45, R95). -/
def State.takeTimer (s : State) (c : Crane) (t : TimerStep) (reported : Option Int) : State :=
  let s1 := { s with timers := s.timers.set c t.timer }
  match t.ends with
  | some cause => s1.endDrain c cause reported
  | none => s1

/-- A watch advanced by a scan in BLANKING, and blanking reported ended at the scan that brings the count to 0 (R68). -/
def State.scanBlanking (s : State) (c : Crane) (value : Option Int) : State :=
  let w := (s.watches.get c).blankingScan value
  let s1 := { s with watches := s.watches.set c w }
  if w.phase = .after then s1.endBlanking c else s1

/-- A watch advanced by a scan in AFTER, and the scan's report to a RUNNING timer (R70, R71, R92 to R94). -/
def State.scanAfter (s : State) (c : Crane) (value : Option Int) (wasOver : Bool) : State :=
  let sensed := (s.watches.get c).sensedAt value wasOver
  let w := (s.watches.get c).afterScan value wasOver
  let s1 := { s with watches := s.watches.set c w }
  if (s.timers.get c).state = .running then
    s1.takeTimer c ((s.timers.get c).report w.afterScans sensed.isSome) sensed
  else s1

/-- A crane's drain watch advanced by the scan that has updated its hooks (R56, R68 to R73). -/
def State.scanWatch (s : State) (c : Crane) : State :=
  let hooks := s.hooksOf c (s.watches.get c).bothHooks
  match (s.watches.get c).phase with
  | .inactive => s
  | .blanking => s.scanBlanking c (scanValue hooks)
  | .after => s.scanAfter c (scanValue hooks) (hooks.any Hook.newestOver)

/-- Both hooks of a load scan, after the 100 ms before it (R56, log 3). The spec gives two hooks that enter FAULT at one scan no
order; hook A's HOOK_FAULT notice is queued before hook B's, and with room for one of them in a queue hook B's is lost
(R59, R185, log 31). -/
def State.scanHooks (s : State) (hookA hookB : Reading) : State :=
  (s.elapse.scanHook .craneA hookA).scanHook .craneB hookB

/-- A load scan: both hooks, then the watches, the one named first before the other (R56, log 5). Each watch's scan, with the
drain end it may bring, is a step of its own, whose writes stand by themselves (R153, R190). -/
def State.loadScan (s : State) (hookA hookB : Reading) (first : Crane) : State :=
  let mid := s.endEvent ((s.scanHooks hookA hookB).scanWatch first) .loadScan
  mid.endEvent (mid.scanWatch first.other) .loadScan

/-- A lapse timer that runs out in the 100 ms before a load scan lapses its reservation (R14, R15), in a step of its own that is
durable before the scan takes effect (R190). -/
def State.runOut (s : State) (c : Context) : State :=
  if s.lapsesAt c then (s.endEvent (s.lapseEntry c) .lapse).writeDue .lapse else s

/-- The lapses of the 100 ms before a load scan. The spec gives two of them no order: crane A, crane B, feed (log 4). -/
def State.runOuts (s : State) : State := ((s.runOut .craneA).runOut .craneB).runOut .feed

/-- LOAD_SCAN (R56): the writes of the scans and drain ends before it, and those of the lapses before it, are durable first
(R190). -/
def execLoadScan (hookA hookB : Reading) (first : Crane) (s : State) : Outcome :=
  .next (s.whileRunning fun s => (s.writeDue .loadScan).runOuts.loadScan hookA hookB first)

/-! ### Drain timer events (R85 to R87, R93, R68) -/

/-- A tick of a RUNNING timer, and the drain end it brings (R85 to R87, R93). -/
def State.tickTimer (s : State) (c : Crane) : State :=
  if (s.timers.get c).state = .running then s.takeTimer c (s.timers.get c).tick none else s

/-- DRAIN_TIMER_TICK (R85). -/
def execDrainTimerTick (c : Crane) (s : State) : Outcome :=
  .next (s.whileRunning fun s => s.endEvent (s.tickTimer c) .loadScan)

/-- The counter of a RUNNING timer reaches the compare, in a mode that consults it (R93, log 4). -/
def State.meetCompare (s : State) (c : Crane) : State :=
  let t := s.timers.get c
  if t.state = .running ∧ t.consults = true then s.takeTimer c t.reachCompare.timedTest none else s

/-- TIMED_COMPARE_MET (R93). -/
def execTimedCompareMet (c : Crane) (s : State) : Outcome :=
  .next (s.whileRunning fun s => s.endEvent (s.meetCompare c) .loadScan)

/-- A RUNNING timer saturates: range 7, counter 1023, and the drain ends SATURATED (R87, log 4). -/
def State.saturateTimer (s : State) (c : Crane) : State :=
  let t := s.timers.get c
  if t.state = .running then
    s.takeTimer c { timer := { t with range := 7 }.saturate, ends := some .saturated } none
  else s

/-- DRAIN_SATURATION (R87). -/
def execDrainSaturation (c : Crane) (s : State) : Outcome :=
  .next (s.whileRunning fun s => s.endEvent (s.saturateTimer c) .loadScan)

/-- The blanking count of a watch in BLANKING reaches 0: AFTER, and blanking reported ended (R68, log 4). -/
def State.reachAfter (s : State) (c : Crane) : State :=
  let w := s.watches.get c
  if w.phase = .blanking then
    ({ s with watches := s.watches.set c { w with remaining := 0, phase := .after } }).endBlanking c
  else s

/-- BLANKING_END (R68). -/
def execBlankingEnd (c : Crane) (s : State) : Outcome :=
  .next (s.whileRunning fun s => s.endEvent (s.reachAfter c) .loadScan)

/-! ### Lapse and immersion limit (R15, R41) -/

/-- LAPSE_EXPIRY (R15): the writes of the lapse before it are durable first (R190). A report of a timer that does not run out
changes nothing (R14, log 4). -/
def execLapseExpiry (c : Context) (s : State) : Outcome :=
  .next (s.whileRunning fun s =>
    let s := s.writeDue .lapse
    s.endEvent (s.lapseEntry c) .lapse)

/-- IMMERSION_LIMIT_EXPIRY (R41). -/
def execImmersionLimitExpiry (c : Crane) (s : State) : Outcome :=
  .next (s.whileRunning fun s => s.endEvent (s.expireImmersion c) .loadScan)

/-! ### Bath scans (R117, R192) -/

/-- BATH_SCAN (R117): the disturbances since the last one, the writes of the scan before it, the scrub of one word, then the
scan's stages (R190, R192). The spec does not say whether the scrub of a scan reads its word before or after that scan's stages:
before them, so a damaged word of the book is written back from the book as the scan found it (log 11). -/
def execBathScan (level temp : Reading) (upsets : List Upset) (s : State) : Outcome :=
  .next (s.whileRunning fun s =>
    let s := (({ s with store := s.store.disturb upsets }).writeDue .bathScan).scrub
    s.endEvent (s.scanBath level temp) .bathScan)

/-! ### The stop input (R164, R165) -/

/-- STOP_FALL (R164). -/
def execStopFall (s : State) : Outcome :=
  .next (({ s with inputs := { s.inputs with stopLow := true } }).whileRunning fun s => s.endEvent s.fallStop .lapse)

/-- STOP_RISE (R165). -/
def execStopRise (s : State) : Outcome :=
  .next (({ s with inputs := { s.inputs with stopLow := false } }).whileRunning fun s => s.endEvent s.riseStop .lapse)

end Sys2Proof.Machine
end

