-- ==== Sys2Proof/Machine/Reads.lean ====
section
/-! DEFINITION. The requests that only read: STATUS, READ LANES, READ BOOK, READ HOOK, READ CLASS and READ JOB, with
their answers coded by R210. -/

namespace Sys2Proof.Machine

/-! ### STATUS (R176) -/

/-- The store damage flags: bit (region code - 1) set for a damaged region (R210). -/
def damageBits (regions : List Nat) : Nat :=
  ((List.range 10).map fun i => if regions.contains (i + 1) then 2 ^ i else 0).sum

/-- The fields STATUS gives every role (R176). -/
def State.statusCommon (s : State) (p : Port) : List Byte :=
  u8 s.mode.code ++ u8 (firstOfTwo s.setup.confirmed) ++ yesNo s.tempKnown ++ yesNo s.tempOk ++
    u8 s.book.state.code ++ yesNo s.book.saturated ++ u16 (damageBits s.damage) ++
    u8 (s.notices.get p).items.length ++ yesNo (s.notices.get p).overflow

/-- The flag set that STATUS reports for a crane: the lead's for crane B in a tandem entry (R176). -/
def State.reportedFlags (s : State) (c : Crane) : EntryFlags := (s.cranes.get (s.leadOf c)).flags

/-- The withdraw demand that STATUS reports for a crane: the lead's for crane B in a tandem entry (R176). -/
def State.reportedDemand (s : State) (c : Crane) : Demand := (s.cranes.get (s.leadOf c)).demand

/-- The fields STATUS gives a crane (R176). -/
def State.statusCrane (s : State) (c : Crane) : List Byte :=
  let x := s.cranes.get c
  u8 x.state.code ++ optional 1 (fun j => u8 (JoinState.code j)) x.join ++ u8 x.link.code ++
    u16 (numberOr0 x.entry) ++ optional 1 (fun k => u8 (EntryKind.code k)) x.kind ++ optional 1 u8 x.endNo ++
    u16 (s.reportedFlags c).bits ++ u8 (s.reportedDemand c).bits ++ u16 (numberOr0 x.lapseMark) ++
    yesNo (s.lines.permit.get c) ++ yesNo (s.lines.wdraw.get c)

/-- The state of the feed context as an entry state. -/
def FeedContext.state (x : FeedContext) : EntryState := if x.reserved then .reserved else .idle

/-- The fields STATUS gives the feed station (R176). -/
def State.statusFeed (s : State) : List Byte :=
  u8 s.feed.state.code ++ u16 (numberOr0 s.feed.entry) ++ u16 (numberOr0 s.feed.lapseMark) ++ yesNo s.lines.feed

/-- The fields STATUS gives the office (R176). -/
def State.statusOffice (s : State) : List Byte :=
  u8 s.cranes.craneA.state.code ++ u16 (numberOr0 s.cranes.craneA.entry) ++
    u8 s.cranes.craneB.state.code ++ u16 (numberOr0 s.cranes.craneB.entry) ++
    u8 s.feed.state.code ++ u16 (numberOr0 s.feed.entry) ++
    yesNo s.lines.permit.craneA ++ yesNo s.lines.permit.craneB ++ yesNo s.lines.wdraw.craneA ++
    yesNo s.lines.wdraw.craneB ++ yesNo s.lines.feed ++ u8 s.records.items.length

/-- The fields STATUS gives one role. -/
def State.statusRole (s : State) (p : Port) : List Byte :=
  match p with
  | .craneA => s.statusCrane .craneA
  | .craneB => s.statusCrane .craneB
  | .feed => s.statusFeed
  | .office => s.statusOffice

/-- STATUS (R176). -/
def statusRule (p : Port) (s : State) : Reply := .told (s.statusCommon p ++ s.statusRole p)

/-! ### READ LANES (R25) -/

/-- A lane record on the link: its holder and its entry number. -/
def Lane.bytes (ln : Lane) : List Byte := u8 ln.holder.code ++ u16 (numberOr0 ln.entry)

/-- A context's part of READ LANES: the entry number and the remaining lapse time in whole seconds, rounded up, while its
lapse timer runs, and its lapse mark (R25). -/
def lapseBytes (entry lapse mark : Option Nat) : List Byte :=
  (if lapse.isSome then u16 (numberOr0 entry) else u16 0) ++ optional 2 (fun t => u16 (ceilDiv t 10)) lapse ++
    u16 (numberOr0 mark)

/-- The lapse timer that READ LANES reports for a crane: the lead's under both cranes of a tandem entry (R25). -/
def State.lapseOf (s : State) (c : Crane) : Option Nat := (s.cranes.get (s.leadOf c)).lapse

/-- READ LANES (R25). -/
def readLanesRule (s : State) : Reply :=
  .told (u8 s.setup.nl ++ u8 s.setup.g ++ u8 s.setup.fzf ++ u8 s.setup.fzl ++ u8 (firstOfTwo s.setup.confirmed) ++
    s.lanes.flatMap Lane.bytes ++
    lapseBytes s.cranes.craneA.entry (s.lapseOf .craneA) s.cranes.craneA.lapseMark ++
    lapseBytes s.cranes.craneB.entry (s.lapseOf .craneB) s.cranes.craneB.lapseMark ++
    lapseBytes s.feed.entry s.feed.lapse s.feed.lapseMark)

/-! ### READ BOOK (R133) -/

/-- The book item's fields in READ BOOK's order (R133). -/
def Book.bytes (b : Book) : List Byte :=
  u32 b.mass ++ u8 b.state.code ++ yesNo b.saturated ++ u32 b.opening ++ u48 b.charged ++ u48 b.picked ++
    u48 b.dross ++ u48 b.ash ++ u48 b.unallocated ++ leSigned 6 b.adjusted

/-- The reconciliation's fields in READ BOOK's order; whole minutes and whole seconds, rounded down (R133). -/
def Reconcile.bytes (r : Reconcile) : List Byte :=
  optional 4 u32 r.gauge ++ optional 8 (leSigned 8) r.diff ++ optional 2 (fun t => u16 (t / 600)) r.since ++
    yesNo r.pending ++ yesNo r.judgedQuiet ++ optional 2 (fun t => u16 (t / 10)) r.quiet ++ u16 r.quietLevels

/-- A bath channel's health, invalid run and valid run (R133, log 21). -/
def Channel.bytes (ch : Channel) : List Byte := u8 ch.health.code ++ u16 ch.invalidRun ++ u16 ch.validRun

/-- READ BOOK (R133). The rule gives the two channels no order: the level's three fields stand before the temperature's
(log 21). -/
def readBookRule (s : State) : Reply :=
  .told (s.book.bytes ++ s.recon.bytes ++
    u8 s.bath.levels.length ++ optional 2 u16 s.bath.levels.getLast? ++
    optional 4 (fun t => u16 t ++ u16 s.bath.age) s.bath.stored ++ yesNo s.tempKnown ++ yesNo s.tempOk ++
    s.bath.level.bytes ++ s.bath.temp.bytes ++ yesNo s.lines.feed ++ u32 s.settings.feedLow)

/-! ### READ HOOK (R82) -/

/-- A sample on the link: its raw count, its mark (good 1, OVER 2) and its mass when good (R82). -/
def Sample.bytes (x : Sample) : List Byte :=
  leSigned 3 x.raw ++ u8 (firstOfTwo x.mass.isSome) ++ optional 4 massBytes x.mass

/-- A hook's fields in READ HOOK's order (R82). -/
def Hook.bytes (h : Hook) : List Byte :=
  leSigned 3 h.cal.zero ++ u16 h.cal.span ++ u8 (firstOfTwo h.cal.calibrated) ++
    u8 h.health.code ++ u16 h.overRun ++ u16 h.goodRun ++
    optional 9 Sample.bytes h.ring.getLast? ++
    yesNo h.steady.isSome ++ optional 4 massBytes h.steady ++
    optional 6 (fun m => massBytes m ++ u16 h.heldAge) h.held

/-- A drain watch's fields in READ HOOK's order (R82). -/
def Watch.bytes (w : Watch) : List Byte :=
  u8 w.phase.code ++ u8 w.condition.code ++ u8 w.remaining ++ u16 w.afterScans ++ u8 w.window.length ++
    u8 w.tail.length ++ optional 4 massBytes w.lastDrop

/-- READ HOOK by a crane (R82): the named hook, and the drain watch of the writer's context, the lead's for crane B while
LINKED. -/
def readHookRule (c : Crane) (body : List Byte) (s : State) : Reply :=
  match hookOfCode (readU8 body) with
  | none => .refused .badValue
  | some h => .told ((s.hooks.get h).bytes ++
      (s.watches.get (if (s.cranes.get c).state = .linked then .craneA else c)).bytes)

/-! ### READ CLASS (R33) -/

/-- A class entry's fields in READ CLASS's order (R33); the hold factor in one byte and T in two (log 21). -/
def ClassEntry.bytes (k : ClassEntry) : List Byte :=
  u16 k.immMin ++ u16 k.immLimit ++ u8 k.drainMode.code ++ u8 k.holdFactor ++ u8 k.basis.code ++
    u16 k.initialHold ++ u8 k.blanking ++ u8 k.window ++ u16 k.threshold ++ u8 k.edition ++ u8 k.count ++
    optional 2 u16 k.last ++ optional 2 u16 k.prior ++ u8 k.startRange

/-- READ CLASS (R33). -/
def readClassRule (body : List Byte) (s : State) : Reply :=
  if 15 < readU8 body then .refused .badValue else .told (s.classAt (readU8 body)).bytes

/-! ### READ JOB (R143) -/

/-- A slot's period-list entry as READ JOB reports it: whether there is one, its position counted from 1, its black sum
(R143). The byte of whether there is one is also the presence byte of the other two, which are zeros without one (log 21). Of
two entries of one slot, which only a misdecoded or torn list can hold, the first is reported (log 33). -/
def periodBytes (period : List PeriodEntry) (i : Nat) : List Byte :=
  optional 7 (fun k => u8 (k + 1) ++ u48 (period.getD k { slot := 0, black := 0 }).black)
    (period.findIdx? fun e => e.slot == i)

/-- A job slot's fields in READ JOB's order (R143). -/
def State.jobBytes (s : State) (i : Nat) : List Byte :=
  let j := s.job i
  u8 i ++ u8 j.state.code ++ u24 (numberOr0 j.number) ++ optional 1 u8 j.defaultClass ++
    leSigned 6 j.blackTotal ++ u48 j.pickupTotal ++ u48 j.drossShare ++
    u16 j.dipCount ++ u16 j.droppedCount ++ u16 j.noMassCount ++ u8 j.openDips ++
    u16 (numberOr0 j.firstEntry) ++ u16 (numberOr0 j.lastEntry) ++ yesNo j.drossUnallocated ++ periodBytes s.period i

/-- READ JOB (R143). -/
def readJobRule (body : List Byte) (s : State) : Reply :=
  let a := ReadJobArgs.read body
  if a.selector = 1 then
    if 63 < a.value then .refused .badValue else .told (s.jobBytes a.value)
  else if a.selector = 2 then
    if !jobNumberOk a.value then .refused .badValue
    else match s.slotOf a.value with
      | none => .refused .noJob
      | some i => .told (s.jobBytes i)
  else .refused .badValue

end Sys2Proof.Machine
end

