-- ==== Sys2Proof/Machine/Links.lean ====
section
/-! DEFINITION. The station links: which rule owns a request, the judgement of a write, reads, short writes and the link-low
timeout (chapter 10). -/

namespace Sys2Proof.Machine

/-! ### Owning rules -/

/-- The owning rule of a request that acts on the writing crane; the port engine lets no other port reach it (R209). -/
def byCrane (p : Port) (rule : Crane → Reply) : Reply :=
  match p.crane with
  | some c => rule c
  | none => .refused .notPermitted

/-- The owning rule of a request (section 10.4). -/
def ownRule (r : Request) (p : Port) (body : List Byte) (s : State) : Reply :=
  match r with
  | .status => statusRule p s
  | .takeNotice => takeNoticeRule p s
  | .readBook => readBookRule s
  | .readLanes => readLanesRule s
  | .reserve => byCrane p fun c => reserveRule c body s
  | .release => byCrane p fun c => releaseRule c s
  | .join => byCrane p fun c => joinRule c body s
  | .lower => byCrane p fun c => lowerRule c s
  | .submerged => byCrane p fun c => submergedRule c s
  | .withdraw => byCrane p fun c => withdrawRule c s
  | .clear => byCrane p fun c => clearRule c s
  | .turned => byCrane p fun c => turnedRule c s
  | .leave => byCrane p fun c => leaveRule c s
  | .dropped => byCrane p fun c => droppedRule c s
  | .readHook => byCrane p fun c => readHookRule c body s
  | .zeroHook => byCrane p fun c => zeroHookRule c s
  | .charge => chargeRule body s
  | .chargeIn => chargeInRule s
  | .chargeAbort => chargeAbortRule s
  | .skim => skimRule body s
  | .setupKettle => setupKettleRule body s
  | .tuneKettle => tuneKettleRule body s
  | .setClass => setClassRule body s
  | .readClass => readClassRule body s
  | .setHook => setHookRule body s
  | .openJob => openJobRule body s
  | .closeJob => closeJobRule body s
  | .readJob => readJobRule body s
  | .removeJob => removeJobRule body s
  | .takeRecords => takeRecordsRule body s
  | .rebase => rebaseRule s
  | .openBook => openBookRule body s
  | .resume => resumeRule s
  | .hold => holdRule s
  | .clearFoul => clearFoulRule body s
  | .reconcileNow => reconcileNowRule s

/-! ### The answer slot (R205) -/

/-- The state with one port's answer slot changed. -/
def State.setSlot (s : State) (p : Port) (slot : AnswerSlot) : State :=
  { s with engines := s.engines.set p { s.engines.get p with slot := slot } }

/-- A request acted on by its owning rule: a refusal and a read change nothing but the slot; a request taken makes its
changes, durable before its answer is READY (R190, R205). -/
def State.finish (s : State) (p : Port) : Reply → State
  | .refused st => s.setSlot p (.ready st [])
  | .told answer => s.setSlot p (.ready .ok answer)
  | .done answer new => (s.endRequest new).setSlot p (.ready .ok answer)

/-- A request handed to its owning block (R204, step 5; R205). -/
def State.serve (s : State) (p : Port) (r : Request) (body : List Byte) : State := s.finish p (ownRule r p body s)

/-- A PENDING slot becomes READY: what a transfer held by a stretch waits for (R206, R207). -/
def State.settle (s : State) (p : Port) : State :=
  match (s.engines.get p).slot with
  | .pending r body => s.serve p r body
  | _ => s

/-! ### Transfers (R201 to R204) -/

/-- The bytes a check covers: the code or status, the two length bytes, the body or answer (R203). -/
def framed (head : Byte) (body : List Byte) : List Byte := head :: (le 2 body.length ++ body)

/-- The check byte of a transfer (R203). -/
def checkByte (head : Byte) (body : List Byte) : Byte := crc (framed head body)

/-- A whole transfer's bytes: those the check covers, and the check byte (section 10.2). -/
def frameBytes (head : Byte) (body : List Byte) : List Byte := framed head body ++ [checkByte head body]

/-- The receive buffer when the check byte of a write comes: the code, the declared length, the body bytes up to the 48th, and
the running check over every byte taken (R202, R203). -/
def ReceiveBuffer.taken (code : Byte) (body : List Byte) : ReceiveBuffer :=
  { code := some code, declared := body.length, body := body.take Config.bodyRoom, check := checkByte code body }

/-- The judgement of a write whose check is good, steps 2 to 5 of R204, on what the receive buffer holds. -/
def State.judgeGood (s : State) (p : Port) (rx : ReceiveBuffer) : State :=
  match rx.code.bind Request.ofCode with
  | none => s.setSlot p (.ready .unknownRequest [])
  | some r =>
    if !r.roles.permits p then s.setSlot p (.ready .notPermitted [])
    else if !r.lengthOk rx.declared then s.setSlot p (.ready .badLength [])
    else s.serve p r rx.body

/-- The judgement of a write by its check byte and what the receive buffer holds (R204). -/
def State.judge (s : State) (p : Port) (rx : ReceiveBuffer) (check : Byte) : State :=
  if check ≠ rx.check then s.setSlot p (.ready .badCheck []) else s.judgeGood p rx

/-- A transfer is over: the engine is IDLE, its receive and sending buffers are empty, no clock is held (R201, log 7). -/
def State.endTransfer (s : State) (p : Port) : State :=
  { s with engines := s.engines.set p { s.engines.get p with
      transfer := .idle, rx := ReceiveBuffer.empty, stretch := .none, tx := [] } }

/-- The engine takes transfers: the part runs and the address is its own (R193, R201). -/
def State.answers (s : State) (addr : LinkAddress) : Bool := s.phase == .running && addr == Config.linkAddress

/-- A whole write transfer (R201, R202, R204). A write that meets a PENDING slot is held until it is READY (R207). The receive
buffer fills and empties within the command (log 7). -/
def State.writeTransfer (s : State) (p : Port) (addr : LinkAddress) (code : Byte) (body : List Byte) (check : Byte) :
    State :=
  if s.answers addr then ((s.settle p).judge p (ReceiveBuffer.taken code body) check).endTransfer p else s

/-- The write transfer of a request: to the part's address, with the request's code and a good check byte. -/
def State.writeRequest (s : State) (p : Port) (r : Request) (body : List Byte) : State :=
  s.writeTransfer p Config.linkAddress r.code body (checkByte r.code body)

/-- The bytes a read sends: the READY answer, or NO_ANSWER (R206). -/
def AnswerSlot.frame : AnswerSlot → List Byte
  | .ready st answer => frameBytes (BitVec.ofNat 8 st.code) answer
  | _ => frameBytes (BitVec.ofNat 8 Status.noAnswer.code) []

/-- What a station that clocks `n` bytes reads: the bytes sent, then 0xFF on a released line (R206). -/
def clockedBytes (frame : List Byte) (n : Nat) : List Byte :=
  frame.take n ++ List.replicate (n - frame.length) 0xFF

/-- The slot of a read that has begun: EMPTY, its answer moved to the sending buffer (R206). -/
def State.sendAnswer (s : State) (p : Port) (clocked : Nat) : State :=
  { s with engines := s.engines.set p { s.engines.get p with
      slot := .empty, sent := clockedBytes (s.engines.get p).slot.frame clocked } }

/-- A read transfer; one that meets a PENDING slot is held until it is READY (R206). -/
def State.readFrom (s : State) (p : Port) (clocked : Nat) : State := ((s.settle p).sendAnswer p clocked).endTransfer p

/-- A short write: no block sees it and the slot is kept (R207). -/
def State.dropWrite (s : State) (p : Port) : State := (s.settle p).endTransfer p

/-! ### Link events -/

/-- UNKNOWN_REQUEST: a raw write transfer, judged whole (R204). The bytes after the check byte are not acknowledged and change
nothing (R202). -/
def execUnknownRequest (p : Port) (addr : LinkAddress) (code : Byte) (body : List Byte) (tail : WriteTail) (s : State) :
    Outcome :=
  .next (s.writeTransfer p addr code body tail.check)

/-- READ_TRANSFER (R206). -/
def execReadTransfer (p : Port) (addr : LinkAddress) (clocked : Nat) (s : State) : Outcome :=
  .next (if s.answers addr then s.readFrom p clocked else s)

/-- SHORT_WRITE (R207): whichever condition ends it, and whatever was taken of it. -/
def execShortWrite (p : Port) (addr : LinkAddress) (_bytes : List Byte) (_ending : WriteEnd) (s : State) : Outcome :=
  .next (if s.answers addr then s.dropWrite p else s)

/-- LINK_LOW_TIMEOUT (R208): a write in progress is a short write, a read in progress is cut off, an idle engine drops
nothing. -/
def execLinkLowTimeout (p : Port) (during : LinkActivity) (s : State) : Outcome :=
  .next (if s.phase = .running then
    match during with
    | .idle => s
    | .writing _ => s.dropWrite p
    | .reading clocked => s.readFrom p clocked
  else s)

end Sys2Proof.Machine
end

