-- ==== Sys2Proof/Machine/Requests.lean ====
section
/-! DEFINITION. The 36 request commands: each a whole write transfer of its request to the part's address with a good check
byte (R202 to R205), acted on by its owning rule (ownRule). -/

namespace Sys2Proof.Machine

/-- STATUS (R176). -/
def execStatus (p : Port) (body : List Byte) (s : State) : Outcome := .next (s.writeRequest p .status body)

/-- TAKE_NOTICE (R187). -/
def execTakeNotice (p : Port) (body : List Byte) (s : State) : Outcome := .next (s.writeRequest p .takeNotice body)

/-- READ_BOOK (R133). -/
def execReadBook (p : Port) (body : List Byte) (s : State) : Outcome := .next (s.writeRequest p .readBook body)

/-- READ_LANES (R25). -/
def execReadLanes (p : Port) (body : List Byte) (s : State) : Outcome := .next (s.writeRequest p .readLanes body)

/-- RESERVE (R6). -/
def execReserve (p : Port) (body : List Byte) (s : State) : Outcome := .next (s.writeRequest p .reserve body)

/-- RELEASE (R18). -/
def execRelease (p : Port) (body : List Byte) (s : State) : Outcome := .next (s.writeRequest p .release body)

/-- JOIN (R11). -/
def execJoin (p : Port) (body : List Byte) (s : State) : Outcome := .next (s.writeRequest p .join body)

/-- LOWER (R35). -/
def execLower (p : Port) (body : List Byte) (s : State) : Outcome := .next (s.writeRequest p .lower body)

/-- SUBMERGED (R38). -/
def execSubmerged (p : Port) (body : List Byte) (s : State) : Outcome := .next (s.writeRequest p .submerged body)

/-- WITHDRAW (R39). -/
def execWithdraw (p : Port) (body : List Byte) (s : State) : Outcome := .next (s.writeRequest p .withdraw body)

/-- CLEAR (R43). -/
def execClear (p : Port) (body : List Byte) (s : State) : Outcome := .next (s.writeRequest p .clear body)

/-- TURNED (R44). -/
def execTurned (p : Port) (body : List Byte) (s : State) : Outcome := .next (s.writeRequest p .turned body)

/-- LEAVE (R48). -/
def execLeave (p : Port) (body : List Byte) (s : State) : Outcome := .next (s.writeRequest p .leave body)

/-- DROPPED (R51). -/
def execDropped (p : Port) (body : List Byte) (s : State) : Outcome := .next (s.writeRequest p .dropped body)

/-- READ_HOOK (R82). -/
def execReadHook (p : Port) (body : List Byte) (s : State) : Outcome := .next (s.writeRequest p .readHook body)

/-- ZERO_HOOK (R80). -/
def execZeroHook (p : Port) (body : List Byte) (s : State) : Outcome := .next (s.writeRequest p .zeroHook body)

/-- CHARGE (R12). -/
def execCharge (p : Port) (body : List Byte) (s : State) : Outcome := .next (s.writeRequest p .charge body)

/-- CHARGE_IN (R20). -/
def execChargeIn (p : Port) (body : List Byte) (s : State) : Outcome := .next (s.writeRequest p .chargeIn body)

/-- CHARGE_ABORT (R19). -/
def execChargeAbort (p : Port) (body : List Byte) (s : State) : Outcome := .next (s.writeRequest p .chargeAbort body)

/-- SKIM (R115). -/
def execSkim (p : Port) (body : List Byte) (s : State) : Outcome := .next (s.writeRequest p .skim body)

/-- SETUP_KETTLE (R4). -/
def execSetupKettle (p : Port) (body : List Byte) (s : State) : Outcome := .next (s.writeRequest p .setupKettle body)

/-- TUNE_KETTLE (R172). -/
def execTuneKettle (p : Port) (body : List Byte) (s : State) : Outcome := .next (s.writeRequest p .tuneKettle body)

/-- SET_CLASS (R30). -/
def execSetClass (p : Port) (body : List Byte) (s : State) : Outcome := .next (s.writeRequest p .setClass body)

/-- READ_CLASS (R33). -/
def execReadClass (p : Port) (body : List Byte) (s : State) : Outcome := .next (s.writeRequest p .readClass body)

/-- SET_HOOK (R81). -/
def execSetHook (p : Port) (body : List Byte) (s : State) : Outcome := .next (s.writeRequest p .setHook body)

/-- OPEN_JOB (R137). -/
def execOpenJob (p : Port) (body : List Byte) (s : State) : Outcome := .next (s.writeRequest p .openJob body)

/-- CLOSE_JOB (R138). -/
def execCloseJob (p : Port) (body : List Byte) (s : State) : Outcome := .next (s.writeRequest p .closeJob body)

/-- READ_JOB (R143). -/
def execReadJob (p : Port) (body : List Byte) (s : State) : Outcome := .next (s.writeRequest p .readJob body)

/-- REMOVE_JOB (R142). -/
def execRemoveJob (p : Port) (body : List Byte) (s : State) : Outcome := .next (s.writeRequest p .removeJob body)

/-- TAKE_RECORDS (R183). -/
def execTakeRecords (p : Port) (body : List Byte) (s : State) : Outcome := .next (s.writeRequest p .takeRecords body)

/-- REBASE (R131). -/
def execRebase (p : Port) (body : List Byte) (s : State) : Outcome := .next (s.writeRequest p .rebase body)

/-- OPEN_BOOK (R132). -/
def execOpenBook (p : Port) (body : List Byte) (s : State) : Outcome := .next (s.writeRequest p .openBook body)

/-- RESUME (R162). -/
def execResume (p : Port) (body : List Byte) (s : State) : Outcome := .next (s.writeRequest p .resume body)

/-- HOLD (R163). -/
def execHold (p : Port) (body : List Byte) (s : State) : Outcome := .next (s.writeRequest p .hold body)

/-- CLEAR_FOUL (R23). -/
def execClearFoul (p : Port) (body : List Byte) (s : State) : Outcome := .next (s.writeRequest p .clearFoul body)

/-- RECONCILE_NOW (R130). -/
def execReconcileNow (p : Port) (body : List Byte) (s : State) : Outcome := .next (s.writeRequest p .reconcileNow body)

end Sys2Proof.Machine
end

