-- ==== Sys2Proof/Machine/Supply.lean ====
section
/-! DEFINITION. The supply and reset events: the flush, the collapse of the supply, and the causes of restart (R193, R194,
R200). -/

namespace Sys2Proof.Machine

/-- The store writes of an accepted request from the working copies `old` to `new`, in the order of its owning rule (R190): the
hook's item of a ZERO HOOK or SET HOOK in any case (R60), for CLOSE JOB the period list first (R140), otherwise what it
changed. -/
def requestWrites (r : Request) (p : Port) (body : List Byte) (old new : StoreImage) : List StepWrites :=
  let item := fun c : Option Crane => (c.map fun c => ({ image := new, keys := [.hook c] } : StepWrites)).toList
  match r with
  | .zeroHook => item p.crane
  | .setHook => item (hookOfCode (SetHookArgs.read body).hook)
  | .closeJob =>
    (stepWrites old new).map fun w =>
      { w with keys := (w.keys.filter fun k => k == .period) ++ w.keys.filter fun k => k != .period }
  | _ => stepWrites old new

/-- The store writes of a port's PENDING request, made at a flush that took the part from `s` to `t` with the items `due`
outstanding (R193, step 3): none of a request that was refused or that changed nothing. -/
def settledWrites (due : List StoreKey) (s t : State) (p : Port) : List (List StepWrites) :=
  match (s.engines.get p).slot, (t.engines.get p).slot with
  | .pending r body, .ready .ok _ =>
    [(requestWrites r p body s.image t.image).map fun w => { w with keys := withDueLost due w.keys }].filter fun ws => !ws.isEmpty
  | _, _ => []

/-- A port's PENDING request has its changes made at a flush; its store writes join those that the flush has to complete. -/
def settleAt (x : State × List (List StepWrites)) (p : Port) : State × List (List StepWrites) :=
  (x.1.settle p, x.2 ++ settledWrites (x.2.flatMap fun ws => ws.flatMap StepWrites.keys) x.1 (x.1.settle p) p)

/-- Every PENDING request has its changes made (R193, step 3), and the writes that this adds to those outstanding. The spec gives
requests on several ports no order; they are made in the order crane A, crane B, feed, office (log 6). -/
def State.settleAll (s : State) : State × List (List StepWrites) :=
  ([.craneA, .craneB, .feed, .office] : List Port).foldl settleAt (s, s.unsaved.map DueStep.writes)

/-- The flush of a running part; a part already stopped takes none (R193). -/
def State.flushPart (s : State) : State :=
  if s.phase = .running then s.settleAll.1.flushed (s.settleAll.1.flushWork s.store s.settleAll.2) else s

/-- SUPPLY_FAIL_FALL (R193). -/
def execSupplyFailFall (s : State) : Outcome :=
  .next ({ s with inputs := { s.inputs with supFailLow := true } }).flushPart

/-- RESET_ASSERT (R193). -/
def execResetAssert (s : State) : Outcome :=
  .next ({ s with inputs := { s.inputs with resetAsserted := true } }).flushPart

/-- SUPPLY_COLLAPSE (R200): a part that still runs is caught in its flush (log 15). -/
def execSupplyCollapse (tears : List StepTear) (s : State) : Outcome := .next (s.flushPart.collapse tears)

/-- A stopped part may restart: the reset input is released, the supply-fail input is high and the supply is up (R194). -/
def State.mayRestart (s : State) : Bool :=
  s.phase == .flushed && !s.inputs.resetAsserted && !s.inputs.supFailLow && !s.inputs.supplyLost

/-- The restart of a part that may restart (R194). -/
def State.tryRestart (s : State) (upsets : List Upset) (cut : Option RestartCut) : State :=
  if s.mayRestart then s.restart upsets cut else s

/-- POWER_ON (R194): the supply rises with the supply-fail input high. A running part has its supply already (log 16). -/
def execPowerOn (upsets : List Upset) (cut : Option RestartCut) (s : State) : Outcome :=
  .next (if s.phase = .running then s
    else ({ s with inputs := { s.inputs with supFailLow := false, supplyLost := false } }).tryRestart upsets cut)

/-- RESET_RELEASE (R194). -/
def execResetRelease (upsets : List Upset) (cut : Option RestartCut) (s : State) : Outcome :=
  .next (({ s with inputs := { s.inputs with resetAsserted := false } }).tryRestart upsets cut)

/-- SUPPLY_FAIL_RISE (R194). -/
def execSupplyFailRise (upsets : List Upset) (cut : Option RestartCut) (s : State) : Outcome :=
  .next (({ s with inputs := { s.inputs with supFailLow := false } }).tryRestart upsets cut)

end Sys2Proof.Machine
end

