-- ==== Sys2Proof/Machine/Dispatch.lean ====
section
/-! DEFINITION. The dispatch: one arm for each constructor of Instr, each one call of its meaning. -/

namespace Sys2Proof.Machine

def exec (i : Instr) (s : State) : Host.Outcome State Fault Refusal :=
  match i with
  | .status p body => Sys2Proof.Machine.execStatus p body s
  | .takeNotice p body => Sys2Proof.Machine.execTakeNotice p body s
  | .readBook p body => Sys2Proof.Machine.execReadBook p body s
  | .readLanes p body => Sys2Proof.Machine.execReadLanes p body s
  | .reserve p body => Sys2Proof.Machine.execReserve p body s
  | .release p body => Sys2Proof.Machine.execRelease p body s
  | .join p body => Sys2Proof.Machine.execJoin p body s
  | .lower p body => Sys2Proof.Machine.execLower p body s
  | .submerged p body => Sys2Proof.Machine.execSubmerged p body s
  | .withdraw p body => Sys2Proof.Machine.execWithdraw p body s
  | .clear p body => Sys2Proof.Machine.execClear p body s
  | .turned p body => Sys2Proof.Machine.execTurned p body s
  | .leave p body => Sys2Proof.Machine.execLeave p body s
  | .dropped p body => Sys2Proof.Machine.execDropped p body s
  | .readHook p body => Sys2Proof.Machine.execReadHook p body s
  | .zeroHook p body => Sys2Proof.Machine.execZeroHook p body s
  | .charge p body => Sys2Proof.Machine.execCharge p body s
  | .chargeIn p body => Sys2Proof.Machine.execChargeIn p body s
  | .chargeAbort p body => Sys2Proof.Machine.execChargeAbort p body s
  | .skim p body => Sys2Proof.Machine.execSkim p body s
  | .setupKettle p body => Sys2Proof.Machine.execSetupKettle p body s
  | .tuneKettle p body => Sys2Proof.Machine.execTuneKettle p body s
  | .setClass p body => Sys2Proof.Machine.execSetClass p body s
  | .readClass p body => Sys2Proof.Machine.execReadClass p body s
  | .setHook p body => Sys2Proof.Machine.execSetHook p body s
  | .openJob p body => Sys2Proof.Machine.execOpenJob p body s
  | .closeJob p body => Sys2Proof.Machine.execCloseJob p body s
  | .readJob p body => Sys2Proof.Machine.execReadJob p body s
  | .removeJob p body => Sys2Proof.Machine.execRemoveJob p body s
  | .takeRecords p body => Sys2Proof.Machine.execTakeRecords p body s
  | .rebase p body => Sys2Proof.Machine.execRebase p body s
  | .openBook p body => Sys2Proof.Machine.execOpenBook p body s
  | .resume p body => Sys2Proof.Machine.execResume p body s
  | .hold p body => Sys2Proof.Machine.execHold p body s
  | .clearFoul p body => Sys2Proof.Machine.execClearFoul p body s
  | .reconcileNow p body => Sys2Proof.Machine.execReconcileNow p body s
  | .unknownRequest p addr code body tail => Sys2Proof.Machine.execUnknownRequest p addr code body tail s
  | .readTransfer p addr clocked => Sys2Proof.Machine.execReadTransfer p addr clocked s
  | .shortWrite p addr bytes ending => Sys2Proof.Machine.execShortWrite p addr bytes ending s
  | .linkLowTimeout p during => Sys2Proof.Machine.execLinkLowTimeout p during s
  | .lapseExpiry c => Sys2Proof.Machine.execLapseExpiry c s
  | .immersionLimitExpiry c => Sys2Proof.Machine.execImmersionLimitExpiry c s
  | .drainTimerTick c => Sys2Proof.Machine.execDrainTimerTick c s
  | .timedCompareMet c => Sys2Proof.Machine.execTimedCompareMet c s
  | .drainSaturation c => Sys2Proof.Machine.execDrainSaturation c s
  | .loadScan hookA hookB first => Sys2Proof.Machine.execLoadScan hookA hookB first s
  | .blankingEnd c => Sys2Proof.Machine.execBlankingEnd c s
  | .bathScan level temp upsets => Sys2Proof.Machine.execBathScan level temp upsets s
  | .stopFall => Sys2Proof.Machine.execStopFall s
  | .stopRise => Sys2Proof.Machine.execStopRise s
  | .supplyFailFall => Sys2Proof.Machine.execSupplyFailFall s
  | .resetAssert => Sys2Proof.Machine.execResetAssert s
  | .powerOn upsets cut => Sys2Proof.Machine.execPowerOn upsets cut s
  | .resetRelease upsets cut => Sys2Proof.Machine.execResetRelease upsets cut s
  | .supplyFailRise upsets cut => Sys2Proof.Machine.execSupplyFailRise upsets cut s
  | .supplyCollapse tears => Sys2Proof.Machine.execSupplyCollapse tears s

end Sys2Proof.Machine
end

