-- ==== Sys2Proof/Safety.lean ====
section
/-! DEFINITION. The terms in which the statements speak: what a port's write is answered with, and the laws that a sound state
of the part keeps. -/

namespace Sys2Proof.Machine

/-! ### Answers -/

/-- The slot holds a request that its owning block has not acted on yet (R205). -/
def AnswerSlot.isPending : AnswerSlot → Bool
  | .pending _ _ => true
  | _ => false

/-- A port takes a transfer at once: the part runs and no request of the port is PENDING (R193, R206, R207). -/
def State.takes (s : State) (p : Port) : Bool := s.phase == .running && !(s.engines.get p).slot.isPending

/-- A port's slot is READY with a status and answer bytes (R205). -/
def State.answered (s : State) (p : Port) (st : Status) (bytes : List Byte) : Prop :=
  (s.engines.get p).slot = .ready st bytes

/-- The state after a write that changed nothing but the answer slot of its port, and whose transfer is over (R205). -/
def State.replied (s : State) (p : Port) (st : Status) (bytes : List Byte) : State :=
  (s.setSlot p (.ready st bytes)).endTransfer p

/-- The state after an accepted request whose owning rule made of the state `new`: its changes durable, the quiet state and
the lines judged, and the answer OK READY (R122, R169, R190, R205). -/
def State.accepted (s : State) (p : Port) (bytes : List Byte) (new : State) : State :=
  (s.endRequest new).replied p .ok bytes

/-! ### Queues (R177, R185) -/

/-- The record queue holds at most 32 records and its lost count is a 16-bit count (R177, R178). -/
abbrev RecordQueue.bounded (q : RecordQueue) : Prop := q.items.length ≤ Config.recordRoom ∧ q.lost ≤ Config.max16

/-- A notice queue holds at most 16 notices (R185). -/
abbrev NoticeQueue.bounded (q : NoticeQueue) : Prop := q.items.length ≤ Config.noticeRoom

/-- Every queue keeps its bound. -/
def State.queuesBounded (s : State) : Prop := s.records.bounded ∧ ∀ p : Port, (s.notices.get p).bounded

/-! ### The law of the book (R105) -/

/-- M equals opening + charged - picked - dross zinc - ash zinc - adjusted. -/
abbrev Book.balanced (b : Book) : Prop :=
  (b.mass : Int) = b.opening + b.charged - b.picked - b.dross - b.ash - b.adjusted

/-- The law of the book: while it is VALID or DRIFTING and not SATURATED it balances (R105); and a gauge mass has been formed
only for a book that is not INVALID (R126, R131). -/
def State.bookLawful (s : State) : Prop :=
  (s.book.state ≠ .invalid → s.book.saturated = false → s.book.balanced) ∧
    (s.recon.gauge.isSome = true → s.book.state ≠ .invalid)

/-! ### Settings (R172) -/

/-- Every setting lies in its range and the temperature window is not inverted (R172). -/
def Settings.inRange (t : Settings) : Prop :=
  (∀ n : Nat, 1 ≤ n → n ≤ Config.settingCount → (settingRange n).1 ≤ t.get n ∧ t.get n ≤ (settingRange n).2) ∧
    t.tempLow ≤ t.tempHigh

/-! ### Lanes and contexts (R1, R8, R26, R52) -/

/-- Every CRANE_A lane lies at least G + 1 below every CRANE_B lane (R8). -/
def craneOrder (lanes : List Lane) (g : Nat) : Prop :=
  ∀ i j : Nat, (lanes[i]?).map Lane.holder = some .craneA → (lanes[j]?).map Lane.holder = some .craneB → i + g + 1 ≤ j

/-- Sixteen lane records, of which exactly the FREE ones carry no entry number (R1). -/
def lanesFormed (lanes : List Lane) : Prop :=
  lanes.length = Config.laneCount ∧ ∀ ln ∈ lanes, ln.holder = .free ↔ ln.entry = none

/-- The links of the two crane contexts to a tandem entry agree: crane A alone leads, crane B alone is linked, both or neither, the join
state is present exactly in a tandem entry, an IDLE context is in none, and a LINKED one is linked (R26, R52). -/
def State.tandemLinked (s : State) : Prop :=
  s.cranes.craneA.link ≠ .linked ∧ s.cranes.craneB.link ≠ .lead ∧
    (s.cranes.craneA.link = .lead ↔ s.cranes.craneB.link = .linked) ∧
    (∀ c : Crane, (s.cranes.get c).link = .alone ↔ (s.cranes.get c).join = none) ∧
    (∀ c : Crane, (s.cranes.get c).state = .idle → (s.cranes.get c).link = .alone) ∧
    ∀ c : Crane, (s.cranes.get c).state = .linked → (s.cranes.get c).link = .linked

/-- The two crane contexts agree on their tandem entry: their links do; crane B's context holds the entry number, the span and the
join state of crane A's and nothing else, LINKED exactly when joined and RESERVED while its JOIN is awaited; and crane A's is
RESERVED while it is awaited (R26, R52). -/
def State.tandemLawful (s : State) : Prop :=
  s.tandemLinked ∧
    (s.cranes.craneA.link = .lead → s.cranes.craneB =
      { CraneContext.idle none with
        entry := s.cranes.craneA.entry, span := s.cranes.craneA.span, join := s.cranes.craneA.join, link := .linked
        state := if s.cranes.craneA.join = some .joined then .linked else .reserved }) ∧
    ∀ c : Crane, (s.cranes.get c).join = some .joinPending → (s.cranes.get c).state = .reserved

/-! ### Reservations (R5, R6, R31) -/

/-- The kind, the job and the class that a RESERVE names resolve: WORK and PROGRESSIVE to the job of an OPEN slot and to the
class given or, for "default", the slot's; DROSS to no job and the class given. -/
def State.resolves (s : State) (a : ReserveArgs) (k : EntryKind) (j : Option JobRef) (n : Nat) (cls : ClassEntry) : Prop :=
  kindOfCode a.kind = some k ∧ s.classes[n]? = some cls ∧
    match k with
    | .dross => a.job = 0 ∧ j = none ∧ a.cls = n ∧ n ≤ 15
    | _ => ∃ i : Nat, s.slotOf a.job = some i ∧ (s.job i).state = .opened ∧ j = some { number := a.job, slot := i } ∧
        ((a.cls = n ∧ n ≤ 15) ∨ (a.cls = classDefault ∧ (s.job i).defaultClass = some n))

/-- A RESERVE passes the tests of R6 that do not depend on the writing crane: the mode is RUN, its kind, job and class resolve,
its span lies in the kettle and every lane of it is FREE. -/
def State.reservable (s : State) (a : ReserveArgs) (k : EntryKind) (j : Option JobRef) (n : Nat) (cls : ClassEntry) : Prop :=
  s.mode = .run ∧ s.resolves a k j n cls ∧ a.f ≤ a.l ∧ a.l < s.setup.nl ∧
    ∀ i : Nat, a.f ≤ i → i ≤ a.l → (s.lanes[i]?).map Lane.holder = some .free

/-- The context of an entry as its admission leaves it (R9, R10, R31): the IDLE values but for the entry number, the kind, the
job, the class and its snapshot, the span, the tandem link and join state, NEW_SETTINGS where the class history is empty, and
the lapse timer at L. -/
def admittedContext (s : State) (k : EntryKind) (j : Option JobRef) (n : Nat) (cls : ClassEntry) (a : ReserveArgs)
    (link : TandemLink) (join : Option JoinState) : CraneContext :=
  { CraneContext.idle none with
    state := .reserved, entry := some s.issued, kind := some k, job := j, classNo := some n, snapshot := some cls
    span := some { f := a.f, l := a.l }, link := link, join := join
    flags := { EntryFlags.empty with newSettings := decide (cls.count = 0) }
    lapse := some (s.settings.lapse * 10) }

/-! ### The book and the feed-demand line (R134) -/

/-- The state with the book replaced and the feed-demand line judged: high while the book is not INVALID and M is below the feed
low mark, with a FEED_LOW notice giving M to the feed station when it rises (R134). -/
def State.withBook (s : State) (b : Book) : State :=
  let high := decide (b.state ≠ .invalid) && decide (b.mass < s.settings.feedLow)
  { s with
    book := b
    lines := { s.lines with feed := high }
    notices :=
      if high && !s.lines.feed then s.notices.set .feed ((s.notices.get .feed).push (.feedLow b.mass)) else s.notices }

/-! ### Jobs and the period (R135, R150) -/

/-- No two slots hold one job number; no slot stands twice in the period list; every black sum is above 0 (R135, R150). -/
def State.jobsLawful (s : State) : Prop :=
  (∀ i j n : Nat, (s.job i).named n = true → (s.job j).named n = true → i = j) ∧
    (s.period.map PeriodEntry.slot).Nodup ∧ ∀ e ∈ s.period, 0 < e.black

/-! ### Jobs and their dips (R144, R147, R148) -/

/-- What the end of an open dip leaves of the job slot `i`, of which the step has made `slot` and of the period list `period`: the
open dips fall by 1; a CLOSING slot that then has none and no period-list entry closes; the entry's own record `own`, if there is
one, is queued before the JOB_CLOSED record, and a JOB_CLOSED notice goes to the office (R141, R144, R159). -/
def State.dipOver (s : State) (i : Nat) (slot : JobSlot) (period : List PeriodEntry) (own : Option RecordBody) : State :=
  let closes := decide (slot.state = .closing ∧ slot.openDips ≤ 1 ∧ ∀ e ∈ period, e.slot ≠ i)
  let queue := match own with
    | some r => s.records.push r
    | none => s.records
  { s with
    jobs := s.jobs.set i { slot with openDips := slot.openDips - 1, state := if closes then .closed else slot.state }
    period := period
    records := if closes then queue.push (.jobClosed (slot.closedRecord i)) else queue
    notices :=
      if closes then s.notices.set .office ((s.notices.get .office).push (.jobClosed (slot.number.getD 0)))
      else s.notices }

/-- The end of the open dip of an entry's job, where the entry has one (R15, R18). -/
def State.withoutDip (s : State) (job : Option JobRef) : State :=
  match job with
  | some j => s.dipOver j.slot (s.job j.slot) s.period none
  | none => s

/-- The slot `y` after the credit of a dip of an entry, before its open dips fall (R147, R149): the black total changes by the
black mass and the pickup total rises by the credited pickup, each held at its bound; the dip count and, without a pickup, the
no-mass count rise; the first entry number is taken once, the last each time. -/
def creditedSlot (y : JobSlot) (black pickup : Option Int) (entry : Nat) : JobSlot :=
  let bound : Int := 140737488355327
  { y with
    blackTotal := match black with
      | none => y.blackTotal
      | some m =>
        if y.blackTotal = bound ∨ y.blackTotal = -bound then y.blackTotal else max (-bound) (min bound (y.blackTotal + m))
    pickupTotal := match pickup with
      | none => y.pickupTotal
      | some p => min (y.pickupTotal + p.toNat) 140737488355327
    dipCount := min (y.dipCount + 1) 65535
    noMassCount := if pickup = none then min (y.noMassCount + 1) 65535 else y.noMassCount
    firstEntry := some (y.firstEntry.getD entry)
    lastEntry := some entry }

/-- The period list after the black mass of a dip of the slot `i` (R150): a mass above 0 joins the slot's entry, whose sum is held
at 2^48 - 1, or makes an entry at the tail; any other changes nothing. -/
def creditedPeriod (period : List PeriodEntry) (i : Nat) (black : Option Int) : List PeriodEntry :=
  match black with
  | none => period
  | some m =>
    if m ≤ 0 then period
    else if ∃ e ∈ period, e.slot = i then
      period.map fun e => if e.slot = i then { e with black := min (e.black + m.toNat) 281474976710655 } else e
    else period ++ [{ slot := i, black := m.toNat }]

/-! ### The accounting of an entry (R46, R47) -/

/-- A credited pickup or dross mass: the drained mass less the black mass, a negative difference as 0; absent without either
(R78, R79). -/
def creditedMass (black drained : Option Int) : Option Int :=
  match black, drained with
  | some b, some d => some (max (d - b) 0)
  | _, _ => none

/-- The crane or cranes of a crane's entry (R53, R181). -/
def entryCranes (x : CraneContext) (c : Crane) : Cranes :=
  if x.link = .lead then .both else match c with
    | .craneA => .craneA
    | .craneB => .craneB

/-- The notice queue of a port after an accounting's DRAIN_END notice: to the entry's crane, and to both cranes for a lead's (R46,
R53). -/
def drainEndTo (s : State) (x : CraneContext) (c : Crane) (q : Port) (n : Notice) : NoticeQueue :=
  if q = c.port ∨ (x.link = .lead ∧ (q = .craneA ∨ q = .craneB)) then (s.notices.get q).push n else s.notices.get q

/-- What the accounting of a WORK or PROGRESSIVE entry leaves in the state `t` of the state `s` that it found (R46, R78, R113,
R147): the flow, with its feed-demand notice; the credit, the period list, the DIP record and a close of the job; the lesson;
and the DRAIN_END notices. -/
def State.workAccounted (s t : State) (c : Crane) (j : JobRef) (cause : EndCause) (duration : Nat) (sensed : Option Nat)
    (drained : Option Int) (flags : EntryFlags) : Prop :=
  let x := s.cranes.get c
  let n := x.entry.getD 0
  let kind := x.kind.getD .work
  let pickup := creditedMass x.black drained
  let ended := s.dipOver j.slot (creditedSlot (s.job j.slot) x.black pickup n) (creditedPeriod s.period j.slot x.black)
    (some (.dip
      { entry := n, kind := kind, cranes := entryCranes x c, job := j.number, classNo := x.classNo.getD 0
        edition := (x.snapshot.map ClassEntry.edition).getD 0, black := x.black, drained := drained, pickup := pickup
        immTimes := x.immTimes, duration := duration, cause := cause, flags := flags }))
  t.book = (match pickup with
    | some p => s.book.pickupFlow p.toNat
    | none => s.book) ∧
  t.jobs = ended.jobs ∧ t.period = ended.period ∧ t.records = ended.records ∧
  t.classes = (s.teachClass x.classNo x.snapshot sensed).classes ∧
  t.notices =
    { craneA := drainEndTo s x c .craneA (.drainEnd n kind cause pickup)
      craneB := drainEndTo s x c .craneB (.drainEnd n kind cause pickup)
      feed := (match pickup with
        | some p => s.withBook (s.book.pickupFlow p.toNat)
        | none => s).notices.feed
      office := ended.notices.office }

/-- What the accounting of a DROSS entry leaves (R47, R114, R155 to R159): with the dross mass X present its zinc is booked and
shared over the period list, the list emptied, DROSS and ALLOCATION queued, and every CLOSING slot without an open dip closed in
order of slot index; an empty list leaves the zinc unallocated. With X absent nothing is booked or shared. -/
def State.drossAccounted (s t : State) (c : Crane) (cause : EndCause) (sensed : Option Nat) (drained : Option Int) : Prop :=
  let x := s.cranes.get c
  let n := x.entry.getD 0
  let mass := creditedMass x.black drained
  let zc := (mass.getD 0).toNat * s.settings.drossFraction / 256
  let shares := s.period.zip (sharesOf zc s.period)
  let own := s.records.push (.dross n (entryCranes x c) mass zc)
  t.classes = (s.teachClass x.classNo x.snapshot sensed).classes ∧
  (∀ q : Port, q ≠ .office → q ≠ .feed →
    t.notices.get q = drainEndTo s x c q (.drainEnd n .dross cause mass)) ∧
  (mass = none →
    t.period = s.period ∧ t.book = s.book ∧ t.jobs = s.jobs ∧ t.records = own ∧
      t.notices.get .feed = s.notices.get .feed ∧ t.notices.get .office = s.notices.get .office) ∧
  (mass ≠ none →
    let closed := (List.range s.jobs.length).filter fun i => decide ((s.job i).state = .closing ∧ (s.job i).openDips = 0)
    t.period = [] ∧
    t.book = (if s.period = [] then (s.book.drossFlow zc).addUnallocated zc else s.book.drossFlow zc) ∧
    t.jobs.length = s.jobs.length ∧
    (∀ i : Nat, i < s.jobs.length → t.job i =
      { s.job i with
        drossShare := match shares.find? fun p => p.1.slot == i with
          | some p => min ((s.job i).drossShare + p.2) Config.maxTotal
          | none => (s.job i).drossShare
        state := if i ∈ closed then .closed else (s.job i).state }) ∧
    t.records = closed.foldl (fun q i => q.push (.jobClosed ((t.job i).closedRecord i)))
      (own.push (.allocation zc (shares.map fun p => ((s.job p.1.slot).number.getD 0, p.2)))) ∧
    t.notices.get .feed = (s.withBook (s.book.drossFlow zc)).notices.get .feed ∧
    t.notices.get .office = closed.foldl (fun q i => q.push (.jobClosed ((s.job i).number.getD 0))) (s.notices.get .office))

/-- The hooks of the entry that a crane works: both for a lead (R53, R66). -/
def State.entryHooks (s : State) (c : Crane) : List Hook :=
  if (s.cranes.get c).link = .lead then [s.hooks.craneA, s.hooks.craneB] else [s.hooks.get c]

/-- A crane of a running part drains an entry, its own or a tandem entry that it leads, with its timer running and its drain watch
on the entry's hooks. -/
def State.drains (s : State) (c : Crane) : Prop :=
  s.phase = .running ∧ (s.cranes.get c).state = .draining ∧ (s.cranes.get c).link ≠ .linked ∧
    (s.timers.get c).state = .running ∧ (s.watches.get c).bothHooks = decide ((s.cranes.get c).link = .lead)

/-- The draining entry is a WORK or PROGRESSIVE entry of a job. -/
def State.drainsWork (s : State) (c : Crane) (j : JobRef) : Prop :=
  s.drains c ∧ ((s.cranes.get c).kind = some .work ∨ (s.cranes.get c).kind = some .progressive) ∧
    (s.cranes.get c).job = some j

/-- The draining entry is a DROSS entry. -/
def State.drainsDross (s : State) (c : Crane) : Prop :=
  s.drains c ∧ (s.cranes.get c).kind = some .dross ∧ s.jobsLawful

/-- What the accounting of a draining entry leaves, by its kind. -/
def State.accounted (s t : State) (c : Crane) (cause : EndCause) (duration : Nat) (sensed : Option Nat)
    (drained : Option Int) (flags : EntryFlags) : Prop :=
  (∀ j : JobRef, s.drainsWork c j → s.workAccounted t c j cause duration sensed drained flags) ∧
    (s.drainsDross c → s.drossAccounted t c cause sensed drained)

/-- The flag set of an accounting: NO_MASS for an absent drained mass with a hook of the entry in FAULT (R75, R76),
NEGATIVE_PICKUP for a drained mass below the black mass (R78, R79). -/
def closeFlags (x : CraneContext) (hooks : List Hook) (drained : Option Int) : EntryFlags :=
  { x.flags with
    noMass := x.flags.noMass || (drained.isNone && hooks.any fun h => h.health == .fault)
    negativePickup := x.flags.negativePickup ||
      match x.black, drained with
      | some b, some d => decide (d < b)
      | _, _ => false }

/-! ### Drained masses (R75, R76) -/

/-- The mean of sample values, rounded to nearest with ties away from zero; absent for none. -/
def meanMass (ms : List Int) : Option Int :=
  match ms with
  | [] => none
  | _ => some (roundDiv ms.sum ms.length)

/-- The drained mass of a timed or saturated end: the sum of the hooks' steady means when every hook is steady, else the mean of
the tail's values taken after blanking (R75). -/
def timedDrained (hooks : List Hook) (tail : List TailValue) : Option Int :=
  if ∀ h ∈ hooks, h.steady ≠ none then some ((hooks.map fun h => h.steady.getD 0).sum)
  else meanMass ((tail.filter fun v => !v.inBlanking).map TailValue.mass)

/-- The drained mass of an early LEAVE: the mean of every value of the tail (R76). -/
def leaveDrained (w : Watch) : Option Int := meanMass (w.tail.map TailValue.mass)

/-- The newest samples' masses of the hooks given, added; absent when one of them is OVER or a hook has no sample (R69, R73). -/
def newestMass : List Hook → Option Int
  | [] => some 0
  | h :: hs =>
    match (h.ring.getLast?).bind Sample.mass, newestMass hs with
    | some m, some r => some (m + r)
    | _, _ => none

/-! ### The drain watch and its timer at a load scan (R67 to R73, R92 to R94) -/

/-- The scan's value of a watch, of whose hooks `used` holds each as the scan found it and as it left it: the newest samples' masses
added, when every channel is GOOD and no sample is OVER (R69, R73). -/
def watchValue (used : List (Hook × Hook)) : Option Int :=
  if ∀ h ∈ used, h.2.health = .good then newestMass (used.map Prod.snd) else none

/-- A sample of the scan is OVER on a hook of the watch (R70, R73). -/
abbrev watchOver (used : List (Hook × Hook)) : Prop := ∃ h ∈ used, (h.2.ring.getLast?).bind Sample.mass = none

/-- A running watch of which a hook enters FAULT at the scan is shut (R72). -/
def Watch.shutAt (w : Watch) (used : List (Hook × Hook)) : Watch :=
  if w.phase ≠ .inactive ∧ w.condition = .opened ∧ ∃ h ∈ used, h.1.health = .good ∧ h.2.health = .fault then
    { w with condition := .shut, window := [], lastDrop := none }
  else w

/-- The window of a watch in AFTER as a scan leaves it (R70): an OVER sample empties an OPEN one, a usable value enters it. -/
def Watch.windowAt (w : Watch) (used : List (Hook × Hook)) : List Int :=
  match (w.shutAt used).condition, watchValue used with
  | .shut, _ => (w.shutAt used).window
  | .opened, some m => (w.window ++ [m]).drop (w.window.length + 1 - w.width)
  | .opened, none => if watchOver used then [] else w.window

/-- The older and the newer mean of an OPEN window that holds W values after the scan (R71). -/
def Watch.meansAt (w : Watch) (used : List (Hook × Hook)) : Option (Int × Int) :=
  let v := w.windowAt used
  if (w.shutAt used).condition = .opened ∧ v.length = w.width then
    some (roundDiv (v.take (w.width / 2)).sum (w.width / 2), roundDiv (v.drop (w.width - w.width / 2)).sum (w.width / 2))
  else none

/-- The sensed condition holds at the scan (R71). -/
def Watch.sensesAt (w : Watch) (used : List (Hook × Hook)) : Bool :=
  (w.meansAt used).any fun m => decide (m.1 - m.2 ≤ (w.threshold : Int))

/-- A scan in AFTER ends the drain: with the first sensed condition in SENSED or EITHER mode, or as the first scan after blanking
with a timed end pending (R93, R94). -/
def scanEnds (w : Watch) (t : DrainTimer) (used : List (Hook × Hook)) : Prop :=
  w.phase = .after ∧ t.state = .running ∧
    ((w.sensesAt used = true ∧ t.sensed = none ∧ (t.mode = some .sensed ∨ t.mode = some .either)) ∨
      (t.timedPending = true ∧ (t.mode = some .timed ∨ t.mode = some .either) ∧ w.afterScans = 0))

/-- A watch as a scan leaves it that does not end its drain (R68 to R73): shut by a fault; in BLANKING counted down, in AFTER
counted up with its window and last drop; and the usable value in its tail. -/
def Watch.scannedBy (w : Watch) (used : List (Hook × Hook)) : Watch :=
  let x := w.shutAt used
  let tail := fun inBlanking : Bool =>
    match watchValue used with
    | some m => (w.tail ++ [({ mass := m, inBlanking := inBlanking } : TailValue)]).drop (w.tail.length + 1 - w.width / 2)
    | none => w.tail
  match w.phase with
  | .inactive => w
  | .blanking =>
    { x with remaining := w.remaining - 1, phase := if w.remaining ≤ 1 then .after else .blanking, tail := tail true }
  | .after =>
    { x with
      afterScans := min (w.afterScans + 1) 65535, window := w.windowAt used, tail := tail false
      lastDrop := match w.meansAt used with
        | some m => some (m.1 - m.2)
        | none => if x.condition = .opened ∧ watchOver used then none else x.lastDrop }

/-- A timer as such a scan leaves it: its blanking ended with the watch's (R68, R92), and the first sensed duration captured, in
TIMED mode, where the drain runs on (R94). -/
def DrainTimer.scannedBy (t : DrainTimer) (w : Watch) (used : List (Hook × Hook)) : DrainTimer :=
  { t with
    inBlanking := if w.phase = .blanking ∧ w.remaining ≤ 1 then false else t.inBlanking
    sensed :=
      if w.phase = .after ∧ t.state = .running ∧ t.sensed = none ∧ w.sensesAt used = true then some (t.counter * 2 ^ t.range / 2)
      else t.sensed }

/-! ### The hooks and the timers of a load scan (R14, R41, R56 to R63, R72) -/

/-- The hooks of a crane's watch, each as a load scan finds it and as it leaves it (R56, R67). -/
def State.scannedHooks (s : State) (rA rB : Reading) (c : Crane) : List (Hook × Hook) :=
  let a := (s.hooks.craneA, s.hooks.craneA.scan s.settings rA)
  let b := (s.hooks.craneB, s.hooks.craneB.scan s.settings rB)
  if (s.watches.get c).bothHooks = true then [a, b]
  else match c with
    | .craneA => [a]
    | .craneB => [b]

/-- A load scan before it advances the drain watches (R14, R41, R56 to R63, R72): the lapse timers 100 ms less; the immersion timers,
the quiet timer and the time since the last reconcile 100 ms more, each held at its bound (log 3); an end whose timer reaches its
limit expired, its OVERDIP queued before the HOOK_FAULT notices of the scan (log 4); both hooks weighed, a hook that enters FAULT
with its HOOK_FAULT, to both cranes while a tandem entry is live, hook A's first (log 31), and the watches on it shut. -/
def State.weighed (s : State) (rA rB : Reading) : State :=
  let hA := s.hooks.craneA.scan s.settings rA
  let hB := s.hooks.craneB.scan s.settings rB
  let faults := fun (h h' : Hook) => decide (h.health = .good ∧ h'.health = .fault)
  let both := fun (ns : PerPort NoticeQueue) (n : Notice) =>
    { ns with craneA := ns.craneA.push n, craneB := ns.craneB.push n }
  let told := fun (ns : PerPort NoticeQueue) (hook : Crane) (bad : Bool) =>
    if bad = false then ns
    else if s.cranes.craneA.link = .lead then both ns (.hookFault hook)
    else ns.set hook.port ((ns.get hook.port).push (.hookFault hook))
  let aged := fun x : CraneContext =>
    { x with
      immTimer := if x.immRunning = true then min (x.immTimer + 1) 65535 else x.immTimer
      lapse := x.lapse.map fun t => t - 1 }
  let late := fun x : CraneContext =>
    decide (x.immRunning = true ∧ x.limitTaken = false ∧
      (x.state = .lowering ∨ x.state = .immersed ∨ x.state = .withdrawing) ∧
      ∃ k ∈ x.snapshot, k.immLimit ≤ (aged x).immTimer)
  let passed := fun x : CraneContext =>
    if late x then
      { aged x with
        limitTaken := true, flags := { x.flags with overdip := true }, demand := { x.demand with overdip := true } }
    else aged x
  let expired := fun (ns : PerPort NoticeQueue) (c : Crane) =>
    let x := s.cranes.get c
    let n := Notice.overdip (x.entry.getD 0) (x.endNo.getD 0)
    if late x = false then ns
    else if x.link = .lead then both ns n
    else ns.set c.port ((ns.get c.port).push n)
  { s with
    cranes := ⟨passed s.cranes.craneA, passed s.cranes.craneB⟩
    feed := { s.feed with lapse := s.feed.lapse.map fun t => t - 1 }
    recon := { s.recon with
      quiet := s.recon.quiet.map fun t => min (t + 1) 655359
      since := s.recon.since.map fun t => min (t + 1) 39321599 }
    hooks := ⟨hA, hB⟩
    watches := ⟨s.watches.craneA.shutAt (s.scannedHooks rA rB .craneA), s.watches.craneB.shutAt (s.scannedHooks rA rB .craneB)⟩
    notices := told (told (expired (expired s.notices .craneA) .craneB) .craneA (faults s.hooks.craneA hA)) .craneB
      (faults s.hooks.craneB hB) }

/-! ### The lapse timers (R14) -/

/-- No lapse timer runs out in the 100 ms before the next load scan (R14, log 3, log 4). -/
def State.noLapse (s : State) : Prop := ∀ c : Context, s.lapsesAt c = false

/-- What the end of a drain leaves in the state `t` of the state `s`, besides its accounting: the crane's context in DRAINED with
the flags given and otherwise as it was, its timer and its watch at their idle values; a quiet timer that starts where the kettle is
still again (R122); and, of everything else, nothing but the writes due, the store and the lines. -/
def State.drainOver (s t : State) (c : Crane) (flags : EntryFlags) : Prop :=
  t.cranes = s.cranes.set c { s.cranes.get c with state := .drained, flags := flags } ∧
    t.timers = s.timers.set c DrainTimer.idle ∧ t.watches = s.watches.set c Watch.inactive ∧
    t.recon = (if t.still = true then { s.recon with quiet := some 0 } else s.recon) ∧
    t = { s with
      cranes := t.cranes, timers := t.timers, watches := t.watches, book := t.book, jobs := t.jobs, period := t.period
      classes := t.classes, records := t.records, notices := t.notices, recon := t.recon, unsaved := t.unsaved
      store := t.store, lines := t.lines }

/-- The drain of a crane ends at a load scan that takes the state `a` to `b`, of whose crane's watch `w`, timer `t` and hooks
`used` hold what the scan found (R74, R75, R93, R94): SENSED, with the newer mean and the duration as its lesson, where the sensed
condition holds for the first time in SENSED or EITHER mode; otherwise TIMED, the end that was pending, with the drained mass of R75
over the tail that the scan leaves. -/
def State.endedByScan (a b : State) (c : Crane) (w : Watch) (t : DrainTimer) (used : List (Hook × Hook)) : Prop :=
  let senses := w.sensesAt used = true ∧ t.sensed = none ∧ (t.mode = some .sensed ∨ t.mode = some .either)
  let duration := t.counter * 2 ^ t.range / 2
  let drained := if senses then (w.meansAt used).map Prod.snd else timedDrained (a.entryHooks c) (w.scannedBy used).tail
  let flags := closeFlags (a.cranes.get c) (a.entryHooks c) drained
  a.accounted b c (if senses then .sensed else .timed) duration (t.scannedBy w used).sensed drained flags ∧ a.drainOver b c flags

/-! ### Bath scans (R117 to R120) -/

/-- The bath scanner after a scan with a valid level and a valid temperature, both channels GOOD (R118 to R120). -/
def BathScanner.taken (b : BathScanner) (level temp : Nat) : BathScanner :=
  { level := { health := .good, invalidRun := 0, validRun := min (b.level.validRun + 1) 65535 }
    temp := { health := .good, invalidRun := 0, validRun := min (b.temp.validRun + 1) 65535 }
    levels := (b.levels ++ [level]).drop (b.levels.length + 1 - 16)
    stored := some temp
    age := 0 }

/-- A bath scan of a running part brings a level and a temperature that are valid, and both channels are GOOD; no write of the
store is due (R117, R118). -/
def State.scansBath (s : State) (rl rt : Reading) (lv tv : Nat) : Prop :=
  s.phase = .running ∧ s.unsaved = [] ∧ s.bath.level.health = .good ∧ s.bath.temp.health = .good ∧
    rl.overload = false ∧ rt.overload = false ∧ lv ≤ 40000 ∧ tv ≤ 8000 ∧
    (rl.raw.toInt - s.settings.levelZero) * s.settings.levelSpan / 65536 = lv ∧
    (rt.raw.toInt - s.settings.tempZero) * s.settings.tempSpan / 65536 = tv

/-! ### The lines (R134, R169, R170, R193, R211) -/

/-- The lines follow their rules while the part runs, and are held low and released while it is stopped. -/
def State.linesLawful (s : State) : Prop :=
  match s.phase with
  | .running => s.lines = s.lineLevels ∧ s.lines.feed = s.feedLevel
  | .flushed => s.lines = Lines.down

/-! ### Durability (R190) -/

/-- The values from which the store's item of a name will last have been written once the writes due are made: those of the last
step due that writes the item, or the store as it stands. -/
def State.lastWritten (s : State) (k : StoreKey) : StoreImage :=
  match ((s.unsaved.flatMap DueStep.writes).filter fun w => w.keys.contains k).getLast? with
  | some w => w.image
  | none => s.store.image

/-- While the part runs, the store holds the working copy of every item but those whose write is still due, and the last write due
of each of these writes it; the store, and each step due, hold as many classes and job slots as the part works on (R190). -/
def State.storeCurrent (s : State) : Prop :=
  s.phase = .running →
    (s.store.image.classes.length = s.classes.length ∧ s.store.image.jobs.length = s.jobs.length) ∧
      (∀ w ∈ s.unsaved.flatMap DueStep.writes, w.image.classes.length = s.classes.length ∧
        w.image.jobs.length = s.jobs.length) ∧
      ∀ k ∈ storeKeys, sameItem (s.lastWritten k) s.image k = true

/-- Every write still due brings the list of records and the lost count together, or neither (R178, log 12). -/
def State.recordsTogether (s : State) : Prop :=
  ∀ w ∈ s.unsaved.flatMap DueStep.writes, StoreKey.records ∈ w.keys ↔ StoreKey.lost ∈ w.keys

/-- The items of a part fit their regions and are sound: no word of the store is disturbed, no request is PENDING, every list is
within its room, the period list names OPEN and CLOSING slots only, the temperature window is not inverted, and the inputs let
the part restart (R194, R195). -/
def State.restorable (s : State) : Prop :=
  s.store.flips = [] ∧ (∀ p : Port, (s.engines.get p).slot.isPending = false) ∧ s.classes.length = Config.classCount ∧
    s.jobs.length = Config.jobCount ∧ s.foul.length ≤ 16 ∧ s.live.length ≤ 3 ∧ s.period.length ≤ 64 ∧
    s.records.bounded ∧ s.settings.tempLow ≤ s.settings.tempHigh ∧
    (∀ e ∈ s.period, (s.job e.slot).state = .opened ∨ (s.job e.slot).state = .closing) ∧
    s.inputs = { stopLow := false, supFailLow := false, resetAsserted := false, supplyLost := false }

/-! ### Damage at restart (R195, R196) -/

/-- The items of a store fit their regions, no list overflows, and the temperature window is not inverted. -/
def StoreImage.fits (img : StoreImage) : Prop :=
  img.classes.length = 16 ∧ img.jobs.length = 64 ∧ img.period.length ≤ 64 ∧ img.foul.length ≤ 16 ∧ img.live.length ≤ 3 ∧
    img.records.items.length ≤ 32 ∧ img.records.lost ≤ 65535 ∧ img.settings.tempLow ≤ img.settings.tempHigh

/-- A disturbance names an item that stands in the store. -/
def StoreImage.names (img : StoreImage) (u : Upset) : Prop :=
  match u.key with
  | .setting n => 1 ≤ n ∧ n ≤ 21 ∧ u.pos = 0
  | .classFields n => n < 16 ∧ u.pos = 0
  | .classEdition n => n < 16 ∧ u.pos = 0
  | .job n => n < 64 ∧ u.pos = 0
  | .foul => u.pos < img.foul.length
  | .records => u.pos < img.records.items.length
  | _ => u.pos = 0

/-- The items of a store with the damaged one replaced, or dropped, as the rule of its region states (the table of R195). -/
def StoreImage.struck (img : StoreImage) (u : Upset) : StoreImage :=
  match u.key with
  | .setup => { img with setup := { nl := 12, g := 1, fzf := 11, fzl := 11, confirmed := false } }
  | .setting n =>
    let t := img.settings.put n (Settings.default.get n)
    { img with settings := if t.tempHigh < t.tempLow then { t with tempLow := 4400, tempHigh := 4600 } else t }
  | .hook c => { img with hooks := img.hooks.set c { zero := 0, span := 1, calibrated := false } }
  | .classFields n =>
    { img with classes := img.classes.modify n fun k => ClassEntry.factory ((k.edition + 1) % 256) }
  | .classEdition n => { img with classes := img.classes.modify n fun k => { k with edition := 1 } }
  | .job n => { img with jobs := img.jobs.set n (JobSlot.vacant .damaged) }
  | .period => { img with period := [] }
  | .book => { img with book := Book.blank }
  | .foul => { img with foul := img.foul.eraseIdx u.pos }
  | .counter => { img with counter := 1 }
  | .live => { img with live := [] }
  | .lost => { img with records := { img.records with lost := 65535 } }
  | .records =>
    { img with records := { img.records with items := img.records.items.eraseIdx u.pos, lost := min (img.records.lost + 1) 65535 } }

/-- The entry of the damaged item list for one damaged item: its region and its index (section 9.1). -/
def damageOf (u : Upset) : DamagedItem :=
  { region := regionOf u.key
    index := match u.key with
      | .setting n | .classFields n | .classEdition n | .job n => n
      | .hook c => if c = .craneA then 0 else 1
      | .foul => u.pos
      | .records => 1
      | _ => 0 }

/-! ### Answers (R205, R210) -/

/-- Every READY answer fits in 1024 bytes, and every outcome other than OK has none (R205, R210). -/
def State.answersFit (s : State) : Prop :=
  ∀ (p : Port) (st : Status) (bytes : List Byte), s.answered p st bytes →
    bytes.length ≤ Config.answerRoom ∧ (st ≠ .ok → bytes = [])

end Sys2Proof.Machine
end

