-- ==== Sys2Proof/WellFormed.lean ====
section
/-! DEFINITION. Well-formed commands: their operands stand for something that can happen at the part's links, inputs and
store. -/

namespace Sys2Proof

open Sys2Proof.Machine

/-- A body length that the two length bytes of a transfer can declare (section 10.2). -/
def bodyFits (body : List Byte) : Bool := decide (body.length < 65536)

/-- The bytes of a write that has not yet given its check byte (R207). -/
def shortOfCheck (bytes : List Byte) : Bool :=
  decide (bytes.length < 3) || decide (bytes.length < 4 + field bytes 1 2)

/-- A disturbance names a word of the store and flips some bit of it (R189, R191). -/
def upsetReal (u : Upset) : Bool :=
  u.bits != 0 && storeBlocks.any fun b => b.1 == u.key && decide (u.pos < b.2.1) && decide (u.word < b.2.2)

/-- A cut stops a restart after some of its items, or after step 1 of its end with no word of a further item read (R194,
R198). -/
def cutReal (cut : Option RestartCut) : Bool :=
  cut.all fun k => decide (k.after ≤ restartItems.length + 1) && (decide (k.after < restartItems.length) || k.words == 0)

/-- No word of the item being written has two fates (R200). -/
def tearReal (t : StepTear) : Bool := t.torn.all fun x => decide ((x.words.map WordTear.word).Nodup)

/-- The body of a request command; none for the other commands. -/
def Instr.body : Instr → List Byte
  | .status _ b | .takeNotice _ b | .readBook _ b | .readLanes _ b => b
  | .reserve _ b | .release _ b | .join _ b | .lower _ b | .submerged _ b | .withdraw _ b => b
  | .clear _ b | .turned _ b | .leave _ b | .dropped _ b | .readHook _ b | .zeroHook _ b => b
  | .charge _ b | .chargeIn _ b | .chargeAbort _ b | .skim _ b => b
  | .setupKettle _ b | .tuneKettle _ b | .setClass _ b | .readClass _ b | .setHook _ b => b
  | .openJob _ b | .closeJob _ b | .readJob _ b | .removeJob _ b | .takeRecords _ b => b
  | .rebase _ b | .openBook _ b | .resume _ b | .hold _ b | .clearFoul _ b | .reconcileNow _ b => b
  | .unknownRequest _ _ _ b _ => b
  | .readTransfer .. | .shortWrite .. | .linkLowTimeout .. => []
  | .lapseExpiry .. | .immersionLimitExpiry .. | .drainTimerTick .. | .timedCompareMet .. | .drainSaturation .. => []
  | .loadScan .. | .blankingEnd .. | .bathScan .. | .stopFall | .stopRise => []
  | .supplyFailFall | .resetAssert | .powerOn .. | .resetRelease .. | .supplyFailRise .. | .supplyCollapse .. => []

/-- A command is well formed. -/
def Instr.wellFormed (i : Instr) : Bool :=
  bodyFits i.body &&
    match i with
    | .shortWrite _ _ bytes _ => shortOfCheck bytes
    | .linkLowTimeout _ (.writing bytes) => shortOfCheck bytes
    | .bathScan _ _ upsets => upsets.all upsetReal
    | .powerOn upsets cut => upsets.all upsetReal && cutReal cut
    | .resetRelease upsets cut => upsets.all upsetReal && cutReal cut
    | .supplyFailRise upsets cut => upsets.all upsetReal && cutReal cut
    | .supplyCollapse tears => tears.all tearReal
    | _ => true

end Sys2Proof
end

