-- ==== Sys2Proof/Certificates/Slice0/Obligations.lean ====
section
/-! DEFINITION. The statements for the provers. -/

open Sys2Proof Sys2Proof.Machine

/-! ### Steps, reset and the laws that every step keeps -/

/-- A step takes the command at the front of the queue and executes it with the queue's rest; an empty queue idles (log 1). -/
def Obligations.Step_takes_the_front_command : Prop :=
  (∀ (s : State) (c : Instr) (rest : List Instr), s.pending = c :: rest →
    step s = exec c { s with pending := rest }) ∧
  ∀ s : State, s.pending = [] → step s = .next s

/-- Power-on of a part whose store is a new part's leaves the reset state, whatever its volatile state was (log 18): restart
sets every volatile state and reads every other from the store (R189, R195, R198). -/
def Obligations.First_restart_of_a_new_part_is_reset : Prop :=
  ∀ s : State, s.phase = .flushed → s.store = { image := StoreImage.newPart, flips := [] } →
    s.inputs.resetAsserted = false → s.inputs.stopLow = false → s.pending = [] →
    exec (.powerOn [] none) s = .next State.reset

/-- What restart leaves, as the rules state it, shown on the reset state, which is a new part after its first restart (the model's
choice, log 18): mode HELD, every context IDLE without lapse mark, timers STOPPED, watches INACTIVE, rings empty, channels GOOD,
engines IDLE with EMPTY slots, the RESTART record and the BOOK_INVALID notices of this restart; and what a new part's store gives:
the setup, the settings, the classes, the job slots, the period list, the book, the hooks, the FOUL items, the counter and the
live-entry list.
(The record queue's count of records offered is the model's own: log 12.) -/
def Obligations.Reset_holds_the_restart_values : Prop :=
  let s := State.reset
  s.mode = .held ∧ s.lanes = List.replicate 16 { holder := .free, entry := none } ∧
  (∀ c : Crane, (s.cranes.get c).state = .idle ∧ (s.cranes.get c).entry = none ∧ (s.cranes.get c).lapseMark = none ∧
    (s.cranes.get c).immRunning = false ∧ (s.cranes.get c).demand.raised = false) ∧
  s.feed.reserved = false ∧ s.feed.lapseMark = none ∧ s.counter = 1 ∧ s.live = [] ∧ s.foul = [] ∧ s.period = [] ∧
  (∀ c : Crane, (s.timers.get c).state = .stopped ∧ (s.timers.get c).counter = 0 ∧ (s.timers.get c).hold = none ∧
    (s.watches.get c).phase = .inactive ∧ (s.watches.get c).tail = []) ∧
  (∀ c : Crane, (s.hooks.get c).cal = { zero := 0, span := 65535, calibrated := true } ∧
    (s.hooks.get c).health = .good ∧ (s.hooks.get c).ring = [] ∧ (s.hooks.get c).held = none) ∧
  s.bath.level.health = .good ∧ s.bath.temp.health = .good ∧ s.bath.levels = [] ∧ s.bath.stored = none ∧
  s.book.state = .invalid ∧ s.book.mass = 0 ∧ s.recon.gauge = none ∧ s.recon.quiet = some 0 ∧
  (∀ p : Port, (s.engines.get p).transfer = .idle ∧ (s.engines.get p).slot = .empty) ∧
  s.lines.permit = ⟨false, false⟩ ∧ s.lines.wdraw = ⟨false, false⟩ ∧ s.damage = [] ∧
  s.setup = { nl := 12, g := 1, fzf := 11, fzl := 11, confirmed := true } ∧
  s.settings =
    { lapse := 90, steadyCount := 8, band := 20, holdAge := 300, quietTime := 30, interval := 30, tolerance := 2000
      alarm := 20000, trimGain := 4, maxTrim := 1000, areaDensity := 40000, floorLevel := 0, tempLow := 4400
      tempHigh := 4600, feedLow := 3000000, drossFraction := 243, ashFraction := 180, levelZero := 0, levelSpan := 4096
      tempZero := 0, tempSpan := 1024 } ∧
  s.classes = List.replicate 16
    { immMin := 0, immLimit := 3000, drainMode := .either, holdFactor := 32, basis := .last, initialHold := 1200
      blanking := 20, window := 16, threshold := 10, edition := 0, count := 0, last := none, prior := none
      startRange := 3 } ∧
  s.jobs = List.replicate 64
    { state := .free, number := none, defaultClass := none, blackTotal := 0, pickupTotal := 0, drossShare := 0
      dipCount := 0, droppedCount := 0, noMassCount := 0, openDips := 0, firstEntry := none, lastEntry := none
      drossUnallocated := false } ∧
  s.records = { items := [{ gap := none, body := .restart [] [] }], lost := 0, offered := 1 } ∧
  (∀ c : Crane, s.notices.get c.port = { items := [], overflow := false }) ∧
  s.notices.feed = { items := [.bookInvalid], overflow := false } ∧
  s.notices.office = { items := [.bookInvalid], overflow := false } ∧
  s.book = { mass := 0, state := .invalid, saturated := false, opening := 0, charged := 0, picked := 0, dross := 0, ash := 0
             unallocated := 0, adjusted := 0 } ∧
  s.store = { image := s.image, flips := [] }

/-- The reset state keeps every law that the statements below say each step keeps. -/
def Obligations.Reset_keeps_every_law : Prop :=
  State.reset.queuesBounded ∧ craneOrder State.reset.lanes State.reset.setup.g ∧ lanesFormed State.reset.lanes ∧
  State.reset.tandemLawful ∧ State.reset.jobsLawful ∧ State.reset.bookLawful ∧ State.reset.settings.inRange ∧
  State.reset.linesLawful ∧ State.reset.storeCurrent ∧ State.reset.recordsTogether ∧ State.reset.answersFit

/-- The record queue never holds more than 32 records and no notice queue more than 16 notices, whatever a step does. -/
def Obligations.Queues_stay_bounded : Prop :=
  ∀ s t : State, s.queuesBounded → step s = .next t → t.queuesBounded

/-- The law of the crane order: every CRANE_A lane stays at least G + 1 below every CRANE_B lane, whatever a step does. -/
def Obligations.Cranes_keep_their_order : Prop :=
  ∀ s t : State, craneOrder s.lanes s.setup.g → step s = .next t → craneOrder t.lanes t.setup.g

/-- Sixteen lane records, of which exactly the FREE ones carry no number, whatever a step does. -/
def Obligations.Lane_records_keep_their_form : Prop :=
  ∀ s t : State, lanesFormed s.lanes → step s = .next t → lanesFormed t.lanes

/-- The two crane contexts agree on their tandem entry, whatever a step does: both are linked to it or neither; crane B's holds
its number, its span and its join state and nothing else, LINKED exactly when joined; and while the JOIN is awaited both are
RESERVED. -/
def Obligations.Tandem_contexts_agree : Prop :=
  ∀ s t : State, s.tandemLawful → step s = .next t → t.tandemLawful

/-- Every line follows its rule while the part runs and is held from a flush to the end of restart, whatever a step does. -/
def Obligations.Lines_follow_their_rules : Prop :=
  ∀ s t : State, s.linesLawful → step s = .next t → t.linesLawful

/-- The store holds the working copy of every item whose write is not still due, whatever a step does; and no write that is due
brings the list of records without the lost count, or the lost count without the list (that both are written where a step
changed only one of them is the model's choice, log 12). -/
def Obligations.Store_follows_the_working_copies : Prop :=
  ∀ s t : State, step s = .next t → (s.storeCurrent → t.storeCurrent) ∧ (s.recordsTogether → t.recordsTogether)

/-- Every READY answer fits in 1024 bytes and every outcome but OK has none, whatever a step does. -/
def Obligations.Answers_fit_their_slots : Prop :=
  ∀ s t : State, s.lanes.length = Config.laneCount → s.answersFit → step s = .next t →
    t.lanes.length = Config.laneCount ∧ t.answersFit

/-- While the part runs every setting stays in its range. (A restart reads the settings from the store, where a word with three
or more bits in error may read as any value, log 10; so the law is of a running part.) -/
def Obligations.Settings_stay_in_range : Prop :=
  ∀ (i : Instr) (s t : State), s.phase = .running → s.settings.inRange → exec i s = .next t → t.settings.inRange

/-- The law of the book: while a part runs, and its trim gain is in its range, no command unbalances a book that is VALID or
DRIFTING and not SATURATED. -/
def Obligations.The_law_of_the_book_is_kept : Prop :=
  ∀ (i : Instr) (s t : State), s.phase = .running → s.settings.trimGain ≤ 16 → s.bookLawful → exec i s = .next t →
    t.bookLawful

/-- While a part runs no two slots come to hold one job number, no slot stands twice in the period list and every black sum
stays above 0. -/
def Obligations.Jobs_and_period_keep_their_form : Prop :=
  ∀ (i : Instr) (s t : State), s.phase = .running → s.jobsLawful → exec i s = .next t → t.jobsLawful

/-- A part stopped by a flush takes nothing from its links, its front end or its timers: none of these changes it. -/
def Obligations.A_stopped_part_takes_nothing : Prop :=
  ∀ s : State, s.phase = .flushed →
    (∀ (p : Port) (r : Request) (body : List Byte), s.writeRequest p r body = s) ∧
    (∀ (p : Port) (a : LinkAddress) (code : Byte) (body : List Byte) (tail : WriteTail),
      exec (.unknownRequest p a code body tail) s = .next s) ∧
    (∀ (p : Port) (a : LinkAddress) (n : Nat), exec (.readTransfer p a n) s = .next s) ∧
    (∀ (p : Port) (a : LinkAddress) (bytes : List Byte) (e : WriteEnd), exec (.shortWrite p a bytes e) s = .next s) ∧
    (∀ (p : Port) (d : LinkActivity), exec (.linkLowTimeout p d) s = .next s) ∧
    (∀ (a b : Reading) (c : Crane), exec (.loadScan a b c) s = .next s) ∧
    (∀ (a b : Reading) (us : List Upset), exec (.bathScan a b us) s = .next s) ∧
    (∀ c : Crane, exec (.drainTimerTick c) s = .next s ∧ exec (.timedCompareMet c) s = .next s ∧
      exec (.drainSaturation c) s = .next s ∧ exec (.blankingEnd c) s = .next s ∧
      exec (.immersionLimitExpiry c) s = .next s) ∧
    ∀ c : Context, exec (.lapseExpiry c) s = .next s

/-! ### Encodings -/

/-- Every body reads back as the fields it was written from (R209, R172), for every field at every value it has room for, and
each code of the request table names its request and no other. -/
def Obligations.Bodies_and_codes_read_back_as_written : Prop :=
  (∀ a : ReserveArgs, a.kind < 256 → a.tandem < 256 → a.f < 256 → a.l < 256 → a.job < 16777216 → a.cls < 256 →
    ReserveArgs.read a.bytes = a) ∧
  (∀ a : SetupArgs, a.nl < 256 → a.g < 256 → a.fzf < 256 → a.fzl < 256 → SetupArgs.read a.bytes = a) ∧
  (∀ ps : List TunePair, (∀ q ∈ ps, q.number < 256 ∧ q.raw < 4294967296) →
    TunePair.readAll (TunePair.bytesAll ps) = ps) ∧
  (∀ a : SetClassArgs, a.number < 256 → a.immMin < 65536 → a.immLimit < 65536 → a.drainMode < 256 →
    a.holdFactor < 256 → a.basis < 256 → a.initialHold < 65536 → a.blanking < 256 → a.window < 256 →
    a.threshold < 65536 → SetClassArgs.read a.bytes = a) ∧
  (∀ a : SetHookArgs, a.hook < 256 → -8388608 ≤ a.zero → a.zero ≤ 8388607 → a.span < 65536 →
    SetHookArgs.read a.bytes = a) ∧
  (∀ a : JobArgs, a.job < 16777216 → a.other < 256 → JobArgs.read a.bytes = a) ∧
  (∀ a : ReadJobArgs, a.selector < 256 → a.value < 16777216 → ReadJobArgs.read a.bytes = a) ∧
  (∀ n : Nat, (n < 256 → readU8 (u8 n) = n) ∧ (n < 65536 → readU16 (u16 n) = n) ∧
    (n < 4294967296 → readU32 (u32 n) = n)) ∧
  (∀ r : Request, Request.ofCode r.code = some r) ∧
  ∀ (b : Byte) (r : Request), Request.ofCode b = some r → r.code = b

/-- Every record has the length its layout gives it, and gives that length, in its bytes 1 and 2, itself. -/
def Obligations.Records_have_the_length_they_give : Prop :=
  (∀ r : Record, r.bytes.length < 65536 → fromLe ((r.bytes.drop 1).take 2) = r.bytes.length) ∧
  ∀ (g : Option Nat),
    (∀ d : DipRecord, ({ gap := g, body := .dip d } : Record).bytes.length = 36) ∧
    (∀ (e : Nat) (c : Cranes) (x : Option Int) (zc : Nat),
      ({ gap := g, body := .dross e c x zc } : Record).bytes.length = 16) ∧
    (∀ (e m : Nat) (b : Bool), ({ gap := g, body := .charge e m b } : Record).bytes.length = 10) ∧
    (∀ m z : Nat, ({ gap := g, body := .skim m z } : Record).bytes.length = 9) ∧
    (∀ d a : Int, ({ gap := g, body := .trim d a } : Record).bytes.length = 13) ∧
    (∀ (d : Int) (m : Nat), ({ gap := g, body := .drift d m } : Record).bytes.length = 17) ∧
    (∀ m : Nat, ({ gap := g, body := .bookOpened m } : Record).bytes.length = 9) ∧
    (∀ (zc : Nat) (ps : List (Nat × Nat)),
      ({ gap := g, body := .allocation zc ps } : Record).bytes.length = 10 + 7 * ps.length) ∧
    (∀ r : JobClosedRecord, ({ gap := g, body := .jobClosed r } : Record).bytes.length = 38) ∧
    (∀ (e : Nat) (j : Option Nat) (f l : Nat),
      ({ gap := g, body := .dropped e j f l } : Record).bytes.length = 12) ∧
    ∀ (as : List LiveEntry) (ds : List DamagedItem),
      ({ gap := g, body := .restart as ds } : Record).bytes.length = 7 + 3 * as.length + 2 * ds.length

/-- The check byte catches every change of one byte of a write's code or body: the write is answered BAD_CHECK and nothing but
the slot changes (R203, R204). -/
def Obligations.A_corrupted_byte_is_answered_BAD_CHECK : Prop :=
  ∀ (p : Port) (code : Byte) (body extra : List Byte) (s : State), s.takes p = true →
    let tail : WriteTail := { check := checkByte code body, extra := extra }
    (∀ code' : Byte, code' ≠ code →
      exec (.unknownRequest p 0x4B code' body tail) s = .next (s.replied p .badCheck [])) ∧
    ∀ (i : Nat) (b : Byte), (h : i < body.length) → body[i] ≠ b →
      exec (.unknownRequest p 0x4B code (body.set i b) tail) s = .next (s.replied p .badCheck [])

/-- A write with a good check byte whose code the table does not name is answered UNKNOWN_REQUEST; one not permitted to the
port, NOT_PERMITTED; one of a wrong length, a body of more than 48 bytes among them, BAD_LENGTH; and none of them changes
anything but the slot (R204). Bytes sent after the check byte change nothing (R202). -/
def Obligations.The_engine_refuses_in_order : Prop :=
  ∀ (p : Port) (code : Byte) (body extra : List Byte) (s : State), s.takes p = true →
    let tail : WriteTail := { check := checkByte code body, extra := extra }
    (Request.ofCode code = none →
      exec (.unknownRequest p 0x4B code body tail) s = .next (s.replied p .unknownRequest [])) ∧
    ∀ r : Request, r.code = code →
      (r.roles.permits p = false →
        exec (.unknownRequest p 0x4B code body tail) s = .next (s.replied p .notPermitted [])) ∧
      (r.roles.permits p = true → (r.lengthOk body.length = false ∨ 48 < body.length) →
        exec (.unknownRequest p 0x4B code body tail) s = .next (s.replied p .badLength [])) ∧
      (r.roles.permits p = true → r.lengthOk body.length = true →
        exec (.unknownRequest p 0x4B code body tail) s = .next (s.writeRequest p r body))

/-! ### Transfers -/

/-- A read sends the READY answer once, framed with its length and check byte and followed by 0xFF; the slot is then EMPTY and
a second read is sent NO_ANSWER (R206). Nothing else changes. -/
def Obligations.A_read_sends_the_answer_once : Prop :=
  ∀ (p : Port) (st : Status) (ans : List Byte) (n : Nat) (s : State), s.phase = .running → s.answered p st ans →
    ∃ t u : State, exec (.readTransfer p 0x4B n) s = .next t ∧
      (t.engines.get p).sent =
        (frameBytes (BitVec.ofNat 8 st.code) ans).take n ++ List.replicate (n - (ans.length + 4)) 0xFF ∧
      (t.engines.get p).slot = .empty ∧
      t = { s with engines := s.engines.set p (t.engines.get p) } ∧
      exec (.readTransfer p 0x4B n) t = .next u ∧
      (u.engines.get p).sent = (frameBytes 0x12 []).take n ++ List.replicate (n - 4) 0xFF ∧
      (u.engines.get p).slot = .empty ∧ u = { t with engines := t.engines.set p (u.engines.get p) }

/-- A short write, and a write cut off by the link-low timeout, leave the slot and every other state as they were; so does a
timeout of an idle engine; a read cut off loses its answer (R206, R207, R208). -/
def Obligations.Dropped_transfers_keep_the_slot : Prop :=
  ∀ (p : Port) (bytes : List Byte) (e : WriteEnd) (s : State), s.takes p = true →
    exec (.shortWrite p 0x4B bytes e) s = .next (s.endTransfer p) ∧
    exec (.linkLowTimeout p (.writing bytes)) s = .next (s.endTransfer p) ∧
    exec (.linkLowTimeout p .idle) s = .next s ∧
    (s.endTransfer p).engines.get p =
      { s.engines.get p with transfer := .idle, rx := ReceiveBuffer.empty, stretch := .none, tx := [] } ∧
    ∀ n : Nat, ∃ t : State, exec (.linkLowTimeout p (.reading n)) s = .next t ∧ (t.engines.get p).slot = .empty ∧
      t = { s with engines := s.engines.set p (t.engines.get p) }

/-! ### What the end of a step leaves -/

/-- What an accepted request leaves besides its own changes: its answer OK in its port's slot and no other engine changed; every
item it changed in the store; the record queue whole, its records and its lost count together, where it queued or counted a record,
or wrote the queue over a record that was still due (log 12); the quiet state judged when the kettle came to stand still or ceased to; every permit, withdraw-demand
and call line at the level its rule gives, and the feed-demand line where the owning rule's own steps judged it (R134). (That a fall of stillness clears reconcile pending at once is read from R130: log 27.) -/
def Obligations.An_accepted_request_is_durable_and_its_lines_follow : Prop :=
  ∀ (s new : State) (p : Port) (ans : List Byte),
    s.store.image.classes.length = new.classes.length → s.store.image.jobs.length = new.jobs.length →
    ∃ t : State, s.accepted p ans new = t ∧ t.answered p .ok ans ∧
      t = { new with
        engines := new.engines.set p (t.engines.get p), store := t.store, unsaved := t.unsaved, lines := t.lines
        recon :=
          if s.still = true ∧ new.still = false then
            { new.recon with quiet := none, quietLevels := 0, judgedQuiet := false, pending := false }
          else if s.still = false ∧ new.still = true then { new.recon with quiet := some 0 }
          else new.recon } ∧
      (∀ k ∈ storeKeys, sameItem s.image t.image k = false → sameItem t.store.image t.image k = true) ∧
      (s.records.offered ≠ new.records.offered → t.store.image.records = t.records) ∧
      ((∀ w ∈ new.unsaved, w.due ≠ .lapse) → sameItem s.image t.image .records = false →
        (∃ w ∈ new.unsaved, .lost ∈ w.keys) → t.store.image.records = t.records) ∧
      t.lines.feed = new.lines.feed ∧
      (∀ c : Crane,
        (t.lines.permit.get c = true ↔ t.mode = .run ∧ t.tempOk = true ∧
          (((t.cranes.get c).state = .reserved ∧ ((t.cranes.get c).link = .alone ∨
              ((t.cranes.get c).link = .lead ∧ (t.cranes.get c).join = some .joined))) ∨
            (t.cranes.get c).state = .readySecond ∨
            ((t.cranes.get c).state = .linked ∧ ((t.cranes.craneA.state = .reserved ∧
              t.cranes.craneA.join = some .joined) ∨ t.cranes.craneA.state = .readySecond)))) ∧
        (t.lines.wdraw.get c = true ↔
          (if (t.cranes.get c).state = .linked then t.cranes.craneA.demand else (t.cranes.get c).demand) ≠
            { overdip := false, stop := false })) ∧
      ∀ q : Port, t.lines.call.get q = true ↔ (t.notices.get q).items ≠ [] ∨ (q = .office ∧ t.records.items ≠ [])

/-- What an event leaves besides its own changes: the items it changed due to be written by the deadline of its kind, in the order
in which the part writes them, a job that it closes only after the period list, and the list of records and the lost count together
with every record queued or counted, with the working copies of that moment (the
order and the moment of the writes are the model's choice where no rule gives them: log 12); the quiet state judged; every line
at the level its rule gives, the feed-demand line where the event's own steps judged it; and no answer slot touched. (That a
fall of stillness clears reconcile pending at once is read from R130: log 27.) -/
def Obligations.An_event_leaves_its_writes_due_and_its_lines_follow : Prop :=
  ∀ (s new : State) (d : Deadline),
    let midway : StoreImage :=
      { new.image with
        jobs := new.jobs.zipIdx.map fun p =>
          if p.1.state = .closed then { p.1 with state := ((s.jobs[p.2]?).map JobSlot.state).getD .closed } else p.1 }
    ∃ (t : State) (due : List DueStep), s.endEvent new d = t ∧
      t = { new with
        unsaved := new.unsaved ++ due, lines := t.lines
        recon :=
          if s.still = true ∧ new.still = false then
            { new.recon with quiet := none, quietLevels := 0, judgedQuiet := false, pending := false }
          else if s.still = false ∧ new.still = true then { new.recon with quiet := some 0 }
          else new.recon } ∧
      ((∀ k ∈ storeKeys, sameItem s.image t.image k = true) → due = []) ∧
      ((∃ k ∈ storeKeys, sameItem s.image t.image k = false) → due =
        [{ due := d
           writes := ([{ image := midway, keys := earlyKeys.filter fun k => !sameItem s.image midway k },
               { image := t.image
                 keys := earlyKeys.filter (fun k => !sameItem midway t.image k) ++
                   lateKeys.filter (fun k => !sameItem s.image t.image k ||
                     (k == .records && s.records.offered != t.records.offered)) }] : List StepWrites).filter
             (fun w => !w.keys.isEmpty) }]) ∧
      t.lines = t.lineLevels ∧ t.lines.feed = new.lines.feed

/-! ### Entry numbers and reads -/

/-- The number an admission takes lies in 1 to 65,535 and is carried by no live entry and by no FOUL lane; the counter then stands
at the number after it, from 65,535 on to 1. -/
def Obligations.The_number_issued_is_unused : Prop :=
  ∀ s : State, 1 ≤ s.counter → s.counter ≤ 65535 → s.lanes.length = 16 →
    1 ≤ s.issued ∧ s.issued ≤ 65535 ∧ (∀ c : Crane, (s.cranes.get c).entry ≠ some s.issued) ∧
    s.feed.entry ≠ some s.issued ∧ (∀ ln ∈ s.lanes, ln.holder = .foul → ln.entry ≠ some s.issued) ∧
    1 ≤ nextNumber s.issued ∧ nextNumber s.issued ≤ 65535 ∧
    (s.issued ≠ 65535 → nextNumber s.issued = s.issued + 1) ∧ (s.issued = 65535 → nextNumber s.issued = 1) ∧
    ((∀ c : Crane, (s.cranes.get c).entry ≠ some s.counter) → s.feed.entry ≠ some s.counter →
      (∀ ln ∈ s.lanes, ln.holder = .foul → ln.entry ≠ some s.counter) → s.issued = s.counter)

/-- STATUS, READ BOOK, READ LANES, READ HOOK, READ CLASS and READ JOB are answered OK in every mode and change nothing but the
answer slot; a value that names no hook, class, slot or selector is refused. The bytes of the answers are coded by R210, with
the choices of log 21; the lane records stand from byte 5 on, three bytes each. -/
def Obligations.Reads_change_nothing_but_the_slot : Prop :=
  ∀ (p : Port) (c : Crane) (s : State), s.takes p = true → s.takes c.port = true → s.takes .office = true →
    exec (.status p []) s = .next (s.replied p .ok (s.statusCommon p ++ s.statusRole p)) ∧
    (∃ ans : List Byte, exec (.readBook p []) s = .next (s.replied p .ok ans) ∧
      ans.take 10 = u32 s.book.mass ++ u8 s.book.state.code ++ yesNo s.book.saturated ++ u32 s.book.opening) ∧
    (∃ ans : List Byte, exec (.readLanes p []) s = .next (s.replied p .ok ans) ∧
      ∀ (i : Nat) (ln : Lane), s.lanes[i]? = some ln →
        (ans.drop (5 + 3 * i)).take 3 = u8 ln.holder.code ++ u16 (ln.entry.getD 0)) ∧
    (∀ (h : Crane) (b : Byte), b.toNat = hookCode h → exec (.readHook c.port [b]) s = .next (s.replied c.port .ok
      ((s.hooks.get h).bytes ++ (s.watches.get (if (s.cranes.get c).state = .linked then .craneA else c)).bytes))) ∧
    (∀ b : Byte, b.toNat ≠ 1 → b.toNat ≠ 2 → exec (.readHook c.port [b]) s = .next (s.replied c.port .badValue [])) ∧
    (∀ (b : Byte) (k : ClassEntry), b.toNat ≤ 15 → s.classes[b.toNat]? = some k →
      exec (.readClass .office [b]) s = .next (s.replied .office .ok k.bytes)) ∧
    (∀ b : Byte, 15 < b.toNat → exec (.readClass .office [b]) s = .next (s.replied .office .badValue [])) ∧
    ∀ body : List Byte, body.length = 4 →
      let a := ReadJobArgs.read body
      (a.selector = 1 → a.value ≤ 63 →
        exec (.readJob .office body) s = .next (s.replied .office .ok (s.jobBytes a.value))) ∧
      (∀ i : Nat, a.selector = 2 → 1 ≤ a.value → a.value ≤ 999999 → s.slotOf a.value = some i →
        exec (.readJob .office body) s = .next (s.replied .office .ok (s.jobBytes i))) ∧
      (a.selector = 2 → 1 ≤ a.value → a.value ≤ 999999 → s.slotOf a.value = none →
        exec (.readJob .office body) s = .next (s.replied .office .noJob [])) ∧
      ((a.selector ≠ 1 ∧ a.selector ≠ 2) ∨ (a.selector = 1 ∧ 63 < a.value) ∨
          (a.selector = 2 ∧ (a.value = 0 ∨ 999999 < a.value)) →
        exec (.readJob .office body) s = .next (s.replied .office .badValue []))

/-! ### Reservations -/

/-- RESERVE admits an entry that is not tandem when every test of R6 passes: the number issued, the span under the crane's
name, the crane's context RESERVED with its class snapshot and its lapse timer, the open dip of its job, the live-entry list;
nothing else. -/
def Obligations.RESERVE_admits_an_entry_of_one_crane : Prop :=
  ∀ (c : Crane) (body : List Byte) (s : State) (k : EntryKind) (j : Option JobRef) (n : Nat) (cls : ClassEntry),
    let a := ReserveArgs.read body
    s.takes c.port = true → body.length = 8 → (s.cranes.get c).state = .idle → s.reservable a k j n cls → a.tandem = 0 →
    (∀ i : Nat, (s.lanes[i]?).map Lane.holder = some (match c with | .craneA => .craneB | .craneB => .craneA) →
      match c with
      | .craneA => a.l + s.setup.g + 1 ≤ i
      | .craneB => i + s.setup.g + 1 ≤ a.f) →
    exec (.reserve c.port body) s = .next (s.accepted c.port (u16 s.issued)
      { s with
        counter := nextNumber s.issued
        lanes := takeSpan s.lanes { f := a.f, l := a.l } (match c with | .craneA => .craneA | .craneB => .craneB) s.issued
        cranes := s.cranes.set c (admittedContext s k j n cls a .alone none)
        jobs := match j with
          | some r => s.jobs.modify r.slot fun x => { x with openDips := x.openDips + 1 }
          | none => s.jobs
        live := s.live ++ [{ entry := s.issued, holders := match c with | .craneA => .craneA | .craneB => .craneB }] })

/-- A tandem RESERVE by crane A, both contexts IDLE, takes the span under TANDEM and puts both contexts into RESERVED,
join-pending, with one number; JOIN_WANTED goes to crane B. Crane B's JOIN of that number then links it and joins both; any
other number is refused BAD_VALUE. Crane B's JOIN in IDLE is answered LAPSED or WRONG_STATE by its lapse mark, and in every other
state, LINKED already or with an entry of its own, WRONG_STATE; crane A's JOIN is always WRONG_STATE. -/
def Obligations.A_tandem_RESERVE_waits_for_JOIN : Prop :=
  (∀ (body : List Byte) (s : State) (k : EntryKind) (j : Option JobRef) (n : Nat) (cls : ClassEntry),
    let a := ReserveArgs.read body
    s.takes .craneA = true → body.length = 8 → s.cranes.craneA.state = .idle → s.cranes.craneB.state = .idle →
    s.reservable a k j n cls → a.tandem = 1 →
    exec (.reserve .craneA body) s = .next (s.accepted .craneA (u16 s.issued)
      { s with
        counter := nextNumber s.issued
        lanes := takeSpan s.lanes { f := a.f, l := a.l } .tandem s.issued
        cranes :=
          { craneA := admittedContext s k j n cls a .lead (some .joinPending)
            craneB := { CraneContext.idle none with
              entry := some s.issued, state := .reserved, span := some { f := a.f, l := a.l }, link := .linked
              join := some .joinPending } }
        jobs := match j with
          | some r => s.jobs.modify r.slot fun x => { x with openDips := x.openDips + 1 }
          | none => s.jobs
        live := s.live ++ [{ entry := s.issued, holders := .both }]
        notices := s.notices.set .craneB ((s.notices.get .craneB).push (.joinWanted s.issued a.f a.l)) })) ∧
  ∀ (body : List Byte) (s : State), body.length = 2 →
    (s.takes .craneB = true → s.cranes.craneB.state = .reserved → s.cranes.craneB.join = some .joinPending →
      (s.cranes.craneB.entry = some (readU16 body) →
        exec (.join .craneB body) s = .next (s.accepted .craneB []
          { s with cranes :=
            { craneA := { s.cranes.craneA with join := some .joined }
              craneB := { s.cranes.craneB with join := some .joined, state := .linked } } })) ∧
      (s.cranes.craneB.entry ≠ some (readU16 body) →
        exec (.join .craneB body) s = .next (s.replied .craneB .badValue []))) ∧
    (s.takes .craneB = true → s.cranes.craneB.state = .idle →
      exec (.join .craneB body) s = .next (s.replied .craneB
        (if s.cranes.craneB.lapseMark = some (readU16 body) then .lapsed else .wrongState) [])) ∧
    (s.takes .craneB = true → s.cranes.craneB.state ≠ .idle →
      ¬(s.cranes.craneB.state = .reserved ∧ s.cranes.craneB.join = some .joinPending) →
      exec (.join .craneB body) s = .next (s.replied .craneB .wrongState [])) ∧
    (s.takes .craneA = true → exec (.join .craneA body) s = .next (s.replied .craneA .wrongState []))

/-- RESERVE refuses, changing nothing but the slot, with the first refusal of R6 that applies: WRONG_STATE for a context that must
be IDLE and is not, of a tandem RESERVE either crane's; KETTLE_NOT_RUN in another mode than RUN; of a WORK or PROGRESSIVE entry
NO_JOB for a number that is 0, above 999,999 or held by no slot, and JOB_NOT_OPEN for a slot that is not OPEN; BAD_VALUE for a field out of its range;
LANES_TAKEN for a span of which some lane is held; then ORDER_CONFLICT for a broken crane order, of an entry of one crane. -/
def Obligations.RESERVE_refuses_held_lanes_before_a_broken_order : Prop :=
  ∀ (c : Crane) (body : List Byte) (s : State), s.takes c.port = true → body.length = 8 → s.lanes.length = 16 →
    s.setup.nl ≤ 16 →
    let a := ReserveArgs.read body
    let refused := fun st : Status => exec (.reserve c.port body) s = .next (s.replied c.port st [])
    let idle := (s.cranes.get c).state = .idle ∧ (a.tandem = 1 → ∀ d : Crane, (s.cranes.get d).state = .idle)
    let billed := a.kind = 1 ∨ a.kind = 2
    let jobOpen := billed → ∃ i : Nat, s.slotOf a.job = some i ∧ (s.job i).state = .opened
    let bad := a.l < a.f ∨ s.setup.nl ≤ a.l ∨ a.kind = 0 ∨ 3 < a.kind ∨ 1 < a.tandem ∨ (a.tandem = 1 ∧ c = .craneB) ∨
      (15 < a.cls ∧ a.cls ≠ 255) ∨ (a.kind = 3 ∧ (a.job ≠ 0 ∨ a.cls = 255))
    let free := ∀ i : Nat, a.f ≤ i → i ≤ a.l → (s.lanes[i]?).map Lane.holder = some .free
    (¬idle → refused .wrongState) ∧
    (idle → s.mode ≠ .run → refused .kettleNotRun) ∧
    (idle → s.mode = .run →
      (billed → a.job = 0 ∨ 999999 < a.job ∨ s.slotOf a.job = none → refused .noJob) ∧
      (∀ i : Nat, billed → s.slotOf a.job = some i → (s.job i).state ≠ .opened → refused .jobNotOpen) ∧
      (jobOpen → bad → refused .badValue) ∧
      (jobOpen → ¬bad → ¬free → refused .lanesTaken) ∧
      (jobOpen → ¬bad → free → a.tandem = 0 →
        (∃ i : Nat, match c with
          | .craneA => (s.lanes[i]?).map Lane.holder = some .craneB ∧ i < a.l + s.setup.g + 1
          | .craneB => (s.lanes[i]?).map Lane.holder = some .craneA ∧ a.f < i + s.setup.g + 1) →
        refused .orderConflict))

/-- RELEASE by a crane that is RESERVED and not linked, and the expiry of its lapse timer, free every lane of the entry, return its
context or both contexts to IDLE, take its number from the live-entry list and an open dip from its job; a CLOSING job that then
has no open dip and no period-list entry closes, with its JOB_CLOSED record and notice. A lapse alone leaves the lapse mark and a
LAPSED notice to each owner. The timer expires when L seconds have passed: the load scan whose 100 ms run it out takes the lapse
before itself, durable at once, crane A's before crane B's; a report is taken in the last tenth of a second only, and one before
it changes nothing (log 3, log 4). RELEASE is refused NOT_LEAD to a linked crane B, LAPSED or WRONG_STATE to an IDLE context by
its lapse mark, and WRONG_STATE in every other state. -/
def Obligations.RELEASE_and_lapse_end_a_reservation : Prop :=
  ∀ (c : Crane) (s : State),
    let x := s.cranes.get c
    (∀ n : Nat, s.tandemLinked → x.state = .reserved → x.entry = some n → x.link ≠ .linked →
      let ended := fun mark : Option Nat =>
        (({ s with
          lanes := s.lanes.map fun ln => if ln.entry = some n then { holder := .free, entry := none } else ln
          cranes := if x.link = .lead then ⟨CraneContext.idle mark, CraneContext.idle mark⟩
            else s.cranes.set c (CraneContext.idle mark)
          live := s.live.filter fun e => e.entry != n } : State).withoutDip x.job)
      (s.takes c.port = true → exec (.release c.port []) s = .next (s.accepted c.port [] (ended none))) ∧
      ∀ (ctx : Context) (t : Nat), s.phase = .running → s.unsaved = [] → x.lapse = some t →
        (ctx = (match c with | .craneA => .craneA | .craneB => .craneB) ∨ (ctx = .craneB ∧ x.link = .lead)) →
        let u := ended (some n)
        let lapsed := s.endEvent
          { u with
            notices :=
              if x.link = .lead then
                { u.notices with
                  craneA := u.notices.craneA.push (.lapsed n), craneB := u.notices.craneB.push (.lapsed n) }
              else u.notices.set c.port ((u.notices.get c.port).push (.lapsed n)) } .lapse
        (t ≤ 1 → exec (.lapseExpiry ctx) s = .next lapsed) ∧
        (1 < t → exec (.lapseExpiry ctx) s = .next (s.endEvent s .lapse)) ∧
        (t ≤ 1 → (c = .craneB → s.lapsesAt .craneA = false) → ∀ (rA rB : Reading) (first : Crane),
          exec (.loadScan rA rB first) s = exec (.loadScan rA rB first) (lapsed.writeDue .lapse))) ∧
    (s.takes c.port = true →
      ((x.state = .linked ∨ (x.state = .reserved ∧ x.link = .linked)) →
        exec (.release c.port []) s = .next (s.replied c.port .notLead [])) ∧
      (x.state = .idle →
        exec (.release c.port []) s = .next (s.replied c.port (if x.lapseMark = none then .wrongState else .lapsed) [])) ∧
      (x.state ≠ .idle → x.state ≠ .linked → x.state ≠ .reserved →
        exec (.release c.port []) s = .next (s.replied c.port .wrongState [])))

/-! ### The feed zone, the setup and FOUL lanes -/

/-- CHARGE takes the feed zone in RUN and in HELD for a mass above 0; it is refused, in this order, to a feed context that is not
IDLE, in STOPPED, with a mass of 0 and with a lane of the zone held. CHARGE ABORT and the lapse free the zone again without any
flow: the lapse when L seconds have passed, taken by the load scan whose 100 ms run its timer out, durable at once and after the
cranes' own, or by a report in the last tenth of a second (log 3, log 4). To an IDLE feed context CHARGE ABORT is answered LAPSED or WRONG_STATE by its lapse mark.
(A feed zone that no SETUP KETTLE could set: log 32.) -/
def Obligations.CHARGE_takes_the_feed_zone_and_CHARGE_ABORT_frees_it : Prop :=
  ∀ s : State,
    (∀ body : List Byte, s.takes .feed = true → body.length = 2 → s.setup.fzl < s.lanes.length →
      let free := ∀ i : Nat, s.setup.fzf ≤ i → i ≤ s.setup.fzl → (s.lanes[i]?).map Lane.holder = some .free
      let refused := fun st : Status => exec (.charge .feed body) s = .next (s.replied .feed st [])
      (s.feed.reserved = true → refused .wrongState) ∧
      (s.feed.reserved = false → s.mode = .stopped → refused .kettleNotRun) ∧
      (s.feed.reserved = false → s.mode ≠ .stopped → readU16 body = 0 → refused .badValue) ∧
      (s.feed.reserved = false → s.mode ≠ .stopped → readU16 body ≠ 0 → ¬free → refused .lanesTaken) ∧
      (s.feed.reserved = false → s.mode ≠ .stopped → readU16 body ≠ 0 → free →
        exec (.charge .feed body) s = .next (s.accepted .feed (u16 s.issued)
          { s with
            counter := nextNumber s.issued
            lanes := takeSpan s.lanes { f := s.setup.fzf, l := s.setup.fzl } .feed s.issued
            feed :=
              { entry := some s.issued, reserved := true, span := some { f := s.setup.fzf, l := s.setup.fzl }
                mass := some (readU16 body), lapseMark := none, lapse := some (s.settings.lapse * 10) }
            live := s.live ++ [{ entry := s.issued, holders := .feed }] }))) ∧
    (∀ n : Nat, s.feed.reserved = true → s.feed.entry = some n →
      let freed : State :=
        { s with
          lanes := s.lanes.map fun ln => if ln.entry = some n then { holder := .free, entry := none } else ln
          live := s.live.filter fun e => e.entry != n }
      (s.takes .feed = true → exec (.chargeAbort .feed []) s =
        .next (s.accepted .feed [] { freed with feed := FeedContext.idle none })) ∧
      ∀ t : Nat, s.phase = .running → s.unsaved = [] → s.feed.lapse = some t →
        let lapsed := s.endEvent
          { freed with
            feed := FeedContext.idle (some n)
            notices := s.notices.set .feed ((s.notices.get .feed).push (.lapsed n)) } .lapse
        (t ≤ 1 → exec (.lapseExpiry .feed) s = .next lapsed) ∧
        (1 < t → exec (.lapseExpiry .feed) s = .next (s.endEvent s .lapse)) ∧
        (t ≤ 1 → s.lapsesAt .craneA = false → s.lapsesAt .craneB = false → ∀ (rA rB : Reading) (first : Crane),
          exec (.loadScan rA rB first) s = exec (.loadScan rA rB first) (lapsed.writeDue .lapse))) ∧
    (s.takes .feed = true → s.feed.reserved = false →
      exec (.chargeAbort .feed []) s =
        .next (s.replied .feed (if s.feed.lapseMark.isSome then .lapsed else .wrongState) []))

/-- CHARGE IN credits the book with the charge mass, at most 30,000, queues the CHARGE record with its mark, judges the feed-demand
line, frees the zone and ends the entry; the answer gives the mass in four bytes (log 21). To an IDLE feed context it is answered
LAPSED or WRONG_STATE by its lapse mark. -/
def Obligations.CHARGE_IN_credits_the_bath : Prop :=
  ∀ s : State, s.takes .feed = true →
    (∀ n mass : Nat, s.feed.reserved = true → s.feed.entry = some n → s.feed.mass = some mass →
      let m := min mass 30000
      exec (.chargeIn .feed []) s =
        .next (s.accepted .feed (massBytes m ++ u8 (if 30000 < mass then 1 else 0))
          { s.withBook (s.book.chargeFlow m) with
            records := s.records.push (.charge n m (decide (30000 < mass)))
            lanes := s.lanes.map fun ln => if ln.entry = some n then { holder := .free, entry := none } else ln
            live := s.live.filter fun e => e.entry != n
            feed := FeedContext.idle none })) ∧
    (s.feed.reserved = false →
      exec (.chargeIn .feed []) s =
        .next (s.replied .feed (if s.feed.lapseMark = none then .wrongState else .lapsed) []))

/-- SETUP KETTLE takes its four fields and confirms the setup in HELD on an empty map; it is refused, in this order, in another
mode, on a map that is not empty, and with a field out of its range. CLEAR FOUL makes FREE every lane that is FOUL with the
number named and takes that number's FOUL items away; a number of 0, and one that no lane
is FOUL with, are refused with BAD_VALUE. -/
def Obligations.SETUP_KETTLE_and_CLEAR_FOUL_change_the_map : Prop :=
  (∀ (body : List Byte) (s : State), s.takes .office = true → body.length = 4 →
    let a := SetupArgs.read body
    let fits := 4 ≤ a.nl ∧ a.nl ≤ 16 ∧ a.g ≤ 3 ∧ a.fzf ≤ a.fzl ∧ a.fzl ≤ a.nl - 1
    (s.mode ≠ .held → exec (.setupKettle .office body) s = .next (s.replied .office .kettleNotRun [])) ∧
    (s.mode = .held → (∃ ln ∈ s.lanes, ln.holder ≠ .free) →
      exec (.setupKettle .office body) s = .next (s.replied .office .mapNotEmpty [])) ∧
    (s.mode = .held → (∀ ln ∈ s.lanes, ln.holder = .free) →
      (¬fits → exec (.setupKettle .office body) s = .next (s.replied .office .badValue [])) ∧
      (fits → exec (.setupKettle .office body) s = .next (s.accepted .office []
        { s with setup := { nl := a.nl, g := a.g, fzf := a.fzf, fzl := a.fzl, confirmed := true } })))) ∧
  ∀ (body : List Byte) (s : State), s.takes .office = true → body.length = 2 →
    let n := readU16 body
    (n = 0 → exec (.clearFoul .office body) s = .next (s.replied .office .badValue [])) ∧
    (n ≠ 0 → (∃ ln ∈ s.lanes, ln.holder = .foul ∧ ln.entry = some n) →
      exec (.clearFoul .office body) s = .next (s.accepted .office []
        { s with
          lanes := s.lanes.map fun ln =>
            if ln.holder = .foul ∧ ln.entry = some n then { holder := .free, entry := none } else ln
          foul := s.foul.filter fun it => it.entry != n })) ∧
    ((∀ ln ∈ s.lanes, ¬(ln.holder = .foul ∧ ln.entry = some n)) →
      exec (.clearFoul .office body) s = .next (s.replied .office .badValue []))

/-! ### Lowering, immersion and withdrawal -/

/-- In a state from which a crane may lower, LOWER is accepted exactly while that crane's lowering-permit line is high; while it
is low LOWER is refused, with KETTLE_NOT_RUN in another mode than RUN and with TEMP_OUT in RUN. -/
def Obligations.LOWER_is_accepted_exactly_while_the_permit_line_is_high : Prop :=
  ∀ (c : Crane) (s : State), s.takes c.port = true → s.linesLawful → (s.cranes.get c).link ≠ .linked →
    ((s.cranes.get c).state = .readySecond ∨ ((s.cranes.get c).state = .reserved ∧ ((s.cranes.get c).link = .alone ∨
      ((s.cranes.get c).link = .lead ∧ (s.cranes.get c).join = some .joined)))) →
    ((s.cranes.get c).link = .alone → (s.cranes.get c).join = none) →
    (s.lines.permit.get c = true →
      ∃ (ans : List Byte) (new : State), exec (.lower c.port []) s = .next (s.accepted c.port ans new) ∧
        (new.cranes.get c).state = .lowering ∧ (s.accepted c.port ans new).lines.permit.get c = false) ∧
    (s.lines.permit.get c = false →
      exec (.lower c.port []) s =
        .next (s.replied c.port (if s.mode = .run then .tempOut else .kettleNotRun) []))

/-- The black mass of a hook, by the four rows of R65: absent in FAULT; the steady mean; the held steady mean not older than the
hold age; otherwise absent. LOWER of end 1 stops the lapse timer, takes the black mass of the crane's hook (of both hooks for a
lead) with the flags of its absence, and starts the immersion timer; LOWER of end 2 starts the immersion timer again and keeps
the black mass. Nothing else changes. The bytes of the answer's black mass follow log 21. LOWER is refused NOT_LEAD to a linked
crane B, then LAPSED to an IDLE context with a lapse mark, then WRONG_STATE in every state but RESERVED, with the join made, and
READY_SECOND. -/
def Obligations.LOWER_takes_the_black_mass_at_end_1_only : Prop :=
  (∀ (h : Hook) (t : Settings),
    (h.health = .fault → h.black t = none) ∧
    (∀ m : Int, h.health = .good → h.steady = some m → h.black t = some m) ∧
    (∀ m : Int, h.health = .good → h.steady = none → h.held = some m → h.heldAge ≤ t.holdAge → h.black t = some m) ∧
    (h.health = .good → h.steady = none → (h.held = none ∨ t.holdAge < h.heldAge) → h.black t = none)) ∧
  (∀ (c : Crane) (s : State), s.takes c.port = true →
    let x := s.cranes.get c
    (x.link = .linked → exec (.lower c.port []) s = .next (s.replied c.port .notLead [])) ∧
    (x.link ≠ .linked → x.state = .idle →
      exec (.lower c.port []) s = .next (s.replied c.port (if x.lapseMark = none then .wrongState else .lapsed) [])) ∧
    (x.link ≠ .linked → x.state ≠ .idle → x.state ≠ .readySecond → (x.state = .reserved → x.join = some .joinPending) →
      exec (.lower c.port []) s = .next (s.replied c.port .wrongState []))) ∧
  ∀ (c : Crane) (s : State), s.takes c.port = true → (s.cranes.get c).link ≠ .linked → s.mode = .run → s.tempOk = true →
    let x := s.cranes.get c
    (x.state = .reserved → x.join ≠ some .joinPending →
      ∃ (black : Option Int) (noMass unsteady : Bool),
        (x.link = .alone → black = (s.hooks.get c).black s.settings ∧
          (noMass = true ↔ (s.hooks.get c).health = .fault) ∧
          (unsteady = true ↔ (s.hooks.get c).health = .good ∧ black = none)) ∧
        (x.link = .lead →
          black = (match s.hooks.craneA.black s.settings, s.hooks.craneB.black s.settings with
            | some a, some b => some (a + b)
            | _, _ => none) ∧
          (noMass = true ↔ s.hooks.craneA.health = .fault ∨ s.hooks.craneB.health = .fault) ∧
          (unsteady = true ↔ (s.hooks.craneA.health = .good ∧ s.hooks.craneA.black s.settings = none) ∨
            (s.hooks.craneB.health = .good ∧ s.hooks.craneB.black s.settings = none))) ∧
        exec (.lower c.port []) s = .next (s.accepted c.port (optional 4 massBytes black)
          { s with
            cranes := s.cranes.set c
              { x with
                state := .lowering, endNo := some 1, lapse := none, black := black, immTimer := 0, immRunning := true
                submerged := none, limitTaken := false
                flags := { x.flags with
                  noMass := x.flags.noMass || noMass, unsteadyBlack := x.flags.unsteadyBlack || unsteady } } })) ∧
    (x.state = .readySecond →
      exec (.lower c.port []) s = .next (s.accepted c.port (optional 4 massBytes x.black)
        { s with
          cranes := s.cranes.set c
            { x with state := .lowering, immTimer := 0, immRunning := true, submerged := none, limitTaken := false } }))

/-- SUBMERGED in LOWERING moves the context to IMMERSED and marks the immersion timer's value; in any other state it is refused
and changes nothing. WITHDRAW moves to WITHDRAWING, taking PARTIAL from LOWERING and, from IMMERSED, SHORT_DIP when the time
under is below the snapshot's immersion minimum. To a crane linked in a tandem entry, join-pending or LINKED, these and every
other request that moves the entry are answered NOT_LEAD. -/
def Obligations.SUBMERGED_and_WITHDRAW_move_the_entry : Prop :=
  ∀ (c : Crane) (s : State), s.takes c.port = true →
    let x := s.cranes.get c
    (x.link = .linked →
      exec (.lower c.port []) s = .next (s.replied c.port .notLead []) ∧
      exec (.submerged c.port []) s = .next (s.replied c.port .notLead []) ∧
      exec (.withdraw c.port []) s = .next (s.replied c.port .notLead []) ∧
      exec (.clear c.port []) s = .next (s.replied c.port .notLead []) ∧
      exec (.turned c.port []) s = .next (s.replied c.port .notLead []) ∧
      exec (.leave c.port []) s = .next (s.replied c.port .notLead []) ∧
      exec (.dropped c.port []) s = .next (s.replied c.port .notLead [])) ∧
    (x.link ≠ .linked →
      (x.state = .lowering → exec (.submerged c.port []) s = .next (s.accepted c.port []
        { s with cranes := s.cranes.set c { x with state := .immersed, submerged := some x.immTimer } })) ∧
      (x.state ≠ .lowering → exec (.submerged c.port []) s = .next (s.replied c.port .wrongState [])) ∧
      (x.state = .lowering → exec (.withdraw c.port []) s = .next (s.accepted c.port []
        { s with
          cranes := s.cranes.set c { x with state := .withdrawing, flags := { x.flags with partialDip := true } } })) ∧
      (∀ (mark : Nat) (k : ClassEntry), x.state = .immersed → x.submerged = some mark → x.snapshot = some k →
        exec (.withdraw c.port []) s = .next (s.accepted c.port []
          { s with
            cranes := s.cranes.set c
              { x with
                state := .withdrawing
                flags := { x.flags with shortDip := x.flags.shortDip || decide (x.immTimer - mark < k.immMin) } } })) ∧
      (x.state ≠ .lowering → x.state ≠ .immersed →
        exec (.withdraw c.port []) s = .next (s.replied c.port .wrongState [])))

/-- The immersion limit of an end expires once: the flag OVERDIP, the cause OVERDIP in the withdraw demand, an OVERDIP notice to
the entry's crane or cranes; the timer stands at the limit or above it. The report is taken from the last tenth of a second before
the limit on (log 4); a report before that, and a second expiry of the same end, change nothing. -/
def Obligations.The_immersion_limit_raises_the_withdraw_demand : Prop :=
  ∀ (c : Crane) (s : State) (k : ClassEntry) (n e : Nat), s.phase = .running →
    let x := s.cranes.get c
    x.snapshot = some k → x.entry = some n → x.endNo = some e → x.immRunning = true →
    (x.state = .lowering ∨ x.state = .immersed ∨ x.state = .withdrawing) →
    (x.limitTaken = false → k.immLimit ≤ x.immTimer + 1 →
      exec (.immersionLimitExpiry c) s = .next (s.endEvent
        { s with
          cranes := s.cranes.set c
            { x with
              immTimer := max x.immTimer k.immLimit, limitTaken := true, flags := { x.flags with overdip := true }
              demand := { x.demand with overdip := true } }
          notices :=
            if x.link = .lead then
              { s.notices with
                craneA := s.notices.craneA.push (.overdip n e), craneB := s.notices.craneB.push (.overdip n e) }
            else s.notices.set c.port ((s.notices.get c.port).push (.overdip n e)) } .loadScan)) ∧
    (x.limitTaken = true ∨ x.immTimer + 1 < k.immLimit →
      exec (.immersionLimitExpiry c) s = .next (s.endEvent s .loadScan))

/-- CLEAR from WITHDRAWING stops the immersion timer, appends its value and empties the demand; end 1 of a PROGRESSIVE entry goes
to TURNING and starts nothing, and TURNED takes it on to READY_SECOND with end number 2. (That this CLEAR's answer is the two
bytes of the immersion time is the model's choice, log 21.) -/
def Obligations.CLEAR_of_end_1_turns_a_progressive_entry : Prop :=
  ∀ (c : Crane) (s : State), s.takes c.port = true → (s.cranes.get c).link ≠ .linked →
    let x := s.cranes.get c
    (x.state = .withdrawing → x.kind = some .progressive → x.endNo = some 1 →
      exec (.clear c.port []) s = .next (s.accepted c.port (u16 x.immTimer)
        { s with
          cranes := s.cranes.set c
            { x with
              state := .turning, immTimes := x.immTimes ++ [x.immTimer], immRunning := false, submerged := none
              demand := { overdip := false, stop := false } } })) ∧
    (x.state = .turning → exec (.turned c.port []) s = .next (s.accepted c.port []
      { s with cranes := s.cranes.set c { x with state := .readySecond, endNo := some 2 } })) ∧
    (x.state ≠ .turning → exec (.turned c.port []) s = .next (s.replied c.port .wrongState [])) ∧
    ((x.state = .turning ∨ x.state = .readySecond) →
      exec (.withdraw c.port []) s = .next (s.replied c.port .wrongState []) ∧
      exec (.clear c.port []) s = .next (s.replied c.port .wrongState []) ∧
      exec (.leave c.port []) s = .next (s.replied c.port .wrongState []) ∧
      exec (.dropped c.port []) s = .next (s.replied c.port .wrongState []) ∧
      exec (.release c.port []) s = .next (s.replied c.port .wrongState []))

/-- CLEAR of a WORK or DROSS entry, or of end 2, enters DRAINING: the drain timer starts from the snapshot with the expected
hold, that of a history value limited to 65,535 with HOLD_OVER, an initial hold as it stands (also one above 65,535, log 32); the
drain watch starts on the crane's hook or, for a lead, on both; the answer carries the immersion time and the hold, two bytes each
(the model's choice, log 21). CLEAR is refused WRONG_STATE in every state but
WITHDRAWING. -/
def Obligations.CLEAR_starts_the_drain : Prop :=
  (∀ (c : Crane) (s : State), s.takes c.port = true → (s.cranes.get c).link ≠ .linked →
    (s.cranes.get c).state ≠ .withdrawing →
    exec (.clear c.port []) s = .next (s.replied c.port .wrongState [])) ∧
  ∀ (c : Crane) (s : State) (k : ClassEntry) (n cls : Nat), s.takes c.port = true → (s.cranes.get c).link ≠ .linked →
    let x := s.cranes.get c
    let history := match k.basis with
      | .last => if k.last.isSome then k.last else k.prior
      | .prior => if k.prior.isSome then k.prior else k.last
    let exceeds := history.any fun h => decide (65535 < k.holdFactor * h / 32)
    let hold := match history with
      | some h => min (k.holdFactor * h / 32) 65535
      | none => k.initialHold
    x.state = .withdrawing → ¬(x.kind = some .progressive ∧ x.endNo = some 1) → x.snapshot = some k →
    x.entry = some n → x.classNo = some cls →
    exec (.clear c.port []) s = .next (s.accepted c.port (u16 x.immTimer ++ u16 hold)
      { s with
        cranes := s.cranes.set c
          { x with
            state := .draining, immTimes := x.immTimes ++ [x.immTimer], immRunning := false, submerged := none
            demand := { overdip := false, stop := false }
            flags := { x.flags with holdOver := x.flags.holdOver || exceeds } }
        timers := s.timers.set c
          { state := .running, counter := 0, range := k.startRange, compare := ceilDiv (hold * 2) (2 ^ k.startRange)
            hold := some hold, mode := some k.drainMode, inBlanking := decide (0 < k.blanking)
            timedPending := decide (ceilDiv (hold * 2) (2 ^ k.startRange) = 0), sensed := none }
        watches := s.watches.set c
          { phase := if k.blanking = 0 then .after else .blanking
            condition :=
              if (x.link = .lead ∧ s.hooks.craneA.health = .good ∧ s.hooks.craneB.health = .good) ∨
                  (x.link ≠ .lead ∧ (s.hooks.get c).health = .good) then .opened else .shut
            remaining := k.blanking, afterScans := 0, window := [], lastDrop := none, tail := []
            blanking := k.blanking, width := k.window, threshold := k.threshold
            bothHooks := decide (x.link = .lead) }
        notices :=
          if exceeds = false then s.notices
          else if x.link = .lead then
            { s.notices with
              craneA := s.notices.craneA.push (.holdOver n cls), craneB := s.notices.craneB.push (.holdOver n cls) }
          else s.notices.set c.port ((s.notices.get c.port).push (.holdOver n cls)) })

/-! ### The closes of an entry -/

/-- LEAVE of a DRAINED entry frees its lanes, returns its context or both contexts to IDLE and takes its number from the
live-entry list; it makes no accounting, record, notice or flow. LEAVE in DRAINING first accounts the entry, WORK, PROGRESSIVE or
DROSS, of one crane or tandem, in full with the cause EARLY_LEAVE, the drain duration of the moment and the mean of the whole
tail, then frees its lanes; the answer carries the values of the DRAIN_END notice; and the quiet timer starts where the kettle is still
again. LEAVE is refused WRONG_STATE in every other state. -/
def Obligations.LEAVE_frees_the_lanes_and_an_early_one_accounts_the_dip : Prop :=
  (∀ (c : Crane) (s : State), s.takes c.port = true → (s.cranes.get c).link ≠ .linked →
    (s.cranes.get c).state ≠ .drained → (s.cranes.get c).state ≠ .draining →
    exec (.leave c.port []) s = .next (s.replied c.port .wrongState [])) ∧
  (∀ (c : Crane) (s : State) (n : Nat), s.takes c.port = true → (s.cranes.get c).link ≠ .linked →
    (s.cranes.get c).state = .drained → (s.cranes.get c).entry = some n →
    exec (.leave c.port []) s = .next (s.accepted c.port []
      { s with
        lanes := s.lanes.map fun ln => if ln.entry = some n then { holder := .free, entry := none } else ln
        cranes :=
          if (s.cranes.get c).link = .lead then ⟨CraneContext.idle none, CraneContext.idle none⟩
          else s.cranes.set c (CraneContext.idle none)
        live := s.live.filter fun e => e.entry != n })) ∧
  ∀ (c : Crane) (s : State) (n : Nat), s.takes c.port = true → s.drains c → (s.cranes.get c).entry = some n →
    let x := s.cranes.get c
    let drained := leaveDrained (s.watches.get c)
    ∃ t : State, exec (.leave c.port []) s = .next t ∧
      s.accounted t c .earlyLeave ((s.timers.get c).counter * 2 ^ (s.timers.get c).range / 2) (s.timers.get c).sensed
        drained (closeFlags x (s.entryHooks c) drained) ∧
      t.answered c.port .ok (drainEndBytes n (x.kind.getD .work) .earlyLeave (creditedMass x.black drained)) ∧
      t.lanes = s.lanes.map (fun ln => if ln.entry = some n then { holder := .free, entry := none } else ln) ∧
      t.cranes = (if x.link = .lead then ⟨CraneContext.idle none, CraneContext.idle none⟩
        else s.cranes.set c (CraneContext.idle none)) ∧
      t.live = s.live.filter (fun e => e.entry != n) ∧
      t.timers = s.timers.set c DrainTimer.idle ∧ t.watches = s.watches.set c Watch.inactive ∧
      t.recon = (if t.still = true then { s.recon with quiet := some 0 } else s.recon) ∧
      (∀ q : Port, q ≠ c.port → t.engines.get q = s.engines.get q) ∧
      t = { s with
        lanes := t.lanes, cranes := t.cranes, live := t.live, timers := t.timers, watches := t.watches, book := t.book
        jobs := t.jobs, period := t.period, classes := t.classes, records := t.records, notices := t.notices
        recon := t.recon, unsaved := t.unsaved, store := t.store, lines := t.lines, engines := t.engines }

/-- DROPPED in LOWERING, IMMERSED or WITHDRAWING turns the entry's lanes FOUL with its number, adds the FOUL item, returns the
context or both contexts to IDLE, raises the dropped count of its job, whose open dip falls, and queues the DROPPED record, then
the JOB_CLOSED record and notice of a job that this closes; no book flow, no period entry and no class history is made. DROPPED is
refused WRONG_STATE in every other state. -/
def Obligations.DROPPED_turns_the_lanes_FOUL : Prop :=
  (∀ (c : Crane) (s : State), s.takes c.port = true → (s.cranes.get c).link ≠ .linked →
    (s.cranes.get c).state ≠ .lowering → (s.cranes.get c).state ≠ .immersed → (s.cranes.get c).state ≠ .withdrawing →
    exec (.dropped c.port []) s = .next (s.replied c.port .wrongState [])) ∧
  ∀ (c : Crane) (s : State) (n f l : Nat), s.takes c.port = true → (s.cranes.get c).link ≠ .linked →
    let x := s.cranes.get c
    (x.state = .lowering ∨ x.state = .immersed ∨ x.state = .withdrawing) → x.entry = some n → x.span = some { f := f, l := l } →
    let fallen : State :=
      { s with
        lanes := s.lanes.map fun ln => if ln.entry = some n then { holder := .foul, entry := some n } else ln
        foul := s.foul ++ [{ entry := n, f := f, l := l }]
        cranes :=
          if x.link = .lead then ⟨CraneContext.idle none, CraneContext.idle none⟩
          else s.cranes.set c (CraneContext.idle none)
        live := s.live.filter fun e => e.entry != n }
    (∀ r : JobRef, x.job = some r →
      exec (.dropped c.port []) s = .next (s.accepted c.port []
        (fallen.dipOver r.slot { s.job r.slot with droppedCount := min ((s.job r.slot).droppedCount + 1) 65535 } s.period
          (some (.dropped n (some r.number) f l))))) ∧
    (x.job = none →
      exec (.dropped c.port []) s = .next (s.accepted c.port []
        { fallen with records := s.records.push (.dropped n none f l) }))

/-! ### The drain timer -/

/-- A tick of a RUNNING drain timer adds 1 to a counter below 1023; at 1023 and a range below 7 the range rises, the counter
becomes 512 and the compare is halved, rounded up. A tick that meets the compare in blanking makes the timed end pending, a
range-up tick that meets the halved compare among them. A timer that does not run takes no tick. -/
def Obligations.A_tick_counts_and_climbs : Prop :=
  ∀ (c : Crane) (s : State), s.phase = .running →
    let t := s.timers.get c
    let heeds := (t.mode = some .timed ∨ t.mode = some .either) ∧ t.timedPending = false
    (t.state ≠ .running → exec (.drainTimerTick c) s = .next (s.endEvent s .loadScan)) ∧
    (t.state = .running → t.counter < 1023 → ¬(heeds ∧ t.compare ≤ t.counter + 1) →
      exec (.drainTimerTick c) s =
        .next (s.endEvent { s with timers := s.timers.set c { t with counter := t.counter + 1 } } .loadScan)) ∧
    (t.state = .running → t.counter < 1023 → heeds → t.compare ≤ t.counter + 1 → t.inBlanking = true →
      exec (.drainTimerTick c) s =
        .next (s.endEvent { s with timers := s.timers.set c { t with counter := t.counter + 1, timedPending := true } }
          .loadScan)) ∧
    (t.state = .running → t.counter = 1023 → t.range < 7 → ¬(heeds ∧ (t.compare + 1) / 2 ≤ 512) →
      exec (.drainTimerTick c) s =
        .next (s.endEvent
          { s with timers := s.timers.set c { t with range := t.range + 1, counter := 512, compare := (t.compare + 1) / 2 } }
          .loadScan)) ∧
    (t.state = .running → t.counter = 1023 → t.range < 7 → heeds → (t.compare + 1) / 2 ≤ 512 → t.inBlanking = true →
      exec (.drainTimerTick c) s =
        .next (s.endEvent
          { s with
            timers := s.timers.set c
              { t with range := t.range + 1, counter := 512, compare := (t.compare + 1) / 2, timedPending := true } }
          .loadScan))

/-- A tick after blanking that meets the compare in TIMED or EITHER mode ends the drain TIMED: the entry, of one crane or tandem, is
accounted with the duration at that tick and the drained mass of R75; so does a range-up tick whose halved compare is not above
512. A tick at range 7 with the counter at 1023 ends it SATURATED at 65,472 ds. -/
def Obligations.A_tick_that_meets_the_compare_ends_the_drain : Prop :=
  ∀ (c : Crane) (s : State), s.drains c →
    let t := s.timers.get c
    let drained := timedDrained (s.entryHooks c) (s.watches.get c).tail
    let flags := closeFlags (s.cranes.get c) (s.entryHooks c) drained
    (t.counter < 1023 → t.compare ≤ t.counter + 1 → (t.mode = some .timed ∨ t.mode = some .either) → t.inBlanking = false →
      t.timedPending = false →
      ∃ u : State, exec (.drainTimerTick c) s = .next u ∧
        s.accounted u c .timed ((t.counter + 1) * 2 ^ t.range / 2) t.sensed drained flags ∧ s.drainOver u c flags) ∧
    (t.counter = 1023 → t.range < 7 → (t.compare + 1) / 2 ≤ 512 → (t.mode = some .timed ∨ t.mode = some .either) →
      t.inBlanking = false → t.timedPending = false →
      ∃ u : State, exec (.drainTimerTick c) s = .next u ∧
        s.accounted u c .timed (512 * 2 ^ (t.range + 1) / 2) t.sensed drained flags ∧ s.drainOver u c flags) ∧
    (t.counter = 1023 → t.range = 7 →
      ∃ u : State, exec (.drainTimerTick c) s = .next u ∧
        s.accounted u c .saturated 65472 t.sensed drained flags ∧ s.drainOver u c flags)

/-- TIMED_COMPARE_MET brings the counter of a RUNNING timer in TIMED or EITHER mode to its compare (log 4) and ends the drain
TIMED after blanking, or makes the end pending in blanking; DRAIN_SATURATION ends the drain SATURATED at 65,472 ds in every
mode; BLANKING_END puts a watch in BLANKING into AFTER and ends the timer's blanking. -/
def Obligations.The_reported_timer_events_take_their_effect : Prop :=
  ∀ (c : Crane) (s : State),
    let t := s.timers.get c
    let w := s.watches.get c
    (s.phase = .running → w.phase = .blanking →
      exec (.blankingEnd c) s = .next (s.endEvent
        { s with
          watches := s.watches.set c { w with remaining := 0, phase := .after }
          timers := s.timers.set c { t with inBlanking := false } } .loadScan)) ∧
    (s.phase = .running → t.state = .running → (t.mode = some .timed ∨ t.mode = some .either) → t.timedPending = false →
      t.compare ≤ 1023 → t.inBlanking = true →
      exec (.timedCompareMet c) s = .next (s.endEvent
        { s with timers := s.timers.set c { t with counter := max t.counter t.compare, timedPending := true } } .loadScan)) ∧
    (s.drains c →
      let drained := timedDrained (s.entryHooks c) w.tail
      let flags := closeFlags (s.cranes.get c) (s.entryHooks c) drained
      ((t.mode = some .timed ∨ t.mode = some .either) → t.timedPending = false → t.inBlanking = false → t.compare ≤ 1023 →
        ∃ u : State, exec (.timedCompareMet c) s = .next u ∧
          s.accounted u c .timed (max t.counter t.compare * 2 ^ t.range / 2) t.sensed drained flags ∧
          s.drainOver u c flags) ∧
      ∃ u : State, exec (.drainSaturation c) s = .next u ∧
        s.accounted u c .saturated 65472 t.sensed drained flags ∧ s.drainOver u c flags)

/-- The load scan that fills an OPEN window whose drop is not more than T ends a SENSED or EITHER drain with the cause SENSED, the
newer mean as drained mass and the timer's duration as drain duration and as the lesson to the class; of a tandem entry on the
sum of both hooks. In TIMED mode the same scan captures the duration and the drain runs on, its watch advanced. The first load
scan after blanking ends a drain whose timed end is pending TIMED, with that scan's value in the tail. The other crane may stand as
it will: its drain then runs on, its watch and its timer advanced by the same scan, also where a hook is in FAULT or enters it; and
where one scan ends the drains of both cranes, they end one after the other, that of the crane named first before the other (log 5).
(The scan begins with the passing of 100 ms and the weighing of both hooks, `State.weighed`, with the choices of log 3, log 4 and
log 31; a lapse that these 100 ms bring is taken before the scan, as RELEASE_and_lapse_end_a_reservation states. Of an odd W, which
only a misdecoded word can give, the middle value counts in neither mean: log 32.) -/
def Obligations.A_flat_window_ends_the_drain_sensed : Prop :=
  ∀ (s : State) (rA rB : Reading) (first : Crane), s.noLapse →
    let used := s.scannedHooks rA rB
    let ends := fun c : Crane => scanEnds (s.watches.get c) (s.timers.get c) (used c)
    let ended := fun (a b : State) (c : Crane) => a.endedByScan b c (s.watches.get c) (s.timers.get c) (used c)
    (∀ c : Crane, s.drains c → ends c → ¬ends c.other →
      let w := s.watches.get c.other
      let before : State :=
        { s.weighed rA rB with
          watches := (s.weighed rA rB).watches.set c.other (w.scannedBy (used c.other))
          timers := s.timers.set c.other ((s.timers.get c.other).scannedBy w (used c.other)) }
      ∃ t : State, exec (.loadScan rA rB first) s = .next t ∧ ended before t c) ∧
    ((∀ c : Crane, s.drains c ∧ ends c) →
      ∃ mid t : State, exec (.loadScan rA rB first) s = .next t ∧
        ended (s.weighed rA rB) mid first ∧ ended mid t first.other) ∧
    ∀ (c : Crane) (m : Int), s.drains c → s.unsaved = [] → (s.watches.get c.other).phase = .inactive →
      let t := s.timers.get c
      let w := s.watches.get c
      let window := (w.window ++ [m]).drop (w.window.length + 1 - w.width)
      let newer := roundDiv (window.drop (w.width - w.width / 2)).sum (w.width / 2)
      let older := roundDiv (window.take (w.width / 2)).sum (w.width / 2)
      w.phase = .after → w.condition = .opened → watchValue (used c) = some m → t.mode = some .timed → t.sensed = none →
      (t.timedPending = false ∨ 0 < w.afterScans) → window.length = w.width → older - newer ≤ w.threshold →
      exec (.loadScan rA rB first) s = .next (s.endEvent
        { s.weighed rA rB with
          timers := s.timers.set c { t with sensed := some (t.counter * 2 ^ t.range / 2) }
          watches := s.watches.set c
            { w with
              afterScans := min (w.afterScans + 1) 65535, window := window, lastDrop := some (older - newer)
              tail := (w.tail ++ [({ mass := m, inBlanking := false } : TailValue)]).drop (w.tail.length + 1 - w.width / 2) } }
        .loadScan)

/-- The end of a DROSS drain, of one crane or tandem, by a tick that meets the compare, by a tick that saturates the timer, and by a
reported saturation (taken at whatever count the timer stands, log 4): with both masses present it books X times the dross
fraction in 256ths, shares it over the period list, empties the list, queues DROSS and then ALLOCATION, closes every CLOSING job
without an open dip, in order of slot index, and teaches the class; an empty list leaves the zinc unallocated. With a mass
absent nothing is booked or shared. -/
def Obligations.A_dross_grab_is_booked_and_shared : Prop :=
  ∀ (c : Crane) (s : State), s.drainsDross c →
    let t := s.timers.get c
    let drained := timedDrained (s.entryHooks c) (s.watches.get c).tail
    let flags := closeFlags (s.cranes.get c) (s.entryHooks c) drained
    (t.counter < 1023 → t.compare ≤ t.counter + 1 → (t.mode = some .timed ∨ t.mode = some .either) → t.inBlanking = false →
      t.timedPending = false →
      ∃ u : State, exec (.drainTimerTick c) s = .next u ∧
        s.drossAccounted u c .timed t.sensed drained ∧ s.drainOver u c flags) ∧
    (t.counter = 1023 → t.range = 7 →
      ∃ u : State, exec (.drainTimerTick c) s = .next u ∧
        s.drossAccounted u c .saturated t.sensed drained ∧ s.drainOver u c flags) ∧
    ∃ u : State, exec (.drainSaturation c) s = .next u ∧
      s.drossAccounted u c .saturated t.sensed drained ∧ s.drainOver u c flags

/-- The laws of the drain timer's arithmetic: the duration is floor(counter × 2^e / 2); a range-up keeps it, and the compare it
leaves is the compare that a start at the new range gives; a counter that meets the compare stands at a duration not below the
hold; the new start range is the least of 0 to 7 at which twice the sensed duration counts to no more than 1023; a close teaches the class exactly when a duration was sensed
and the editions are equal. -/
def Obligations.Durations_compares_and_lessons : Prop :=
  (∀ t : DrainTimer, t.duration = t.counter * 2 ^ t.range / 2) ∧
  (∀ t : DrainTimer, t.counter = 1023 →
    (t.rangeUp).duration = ({ t with counter := 1024 }).duration) ∧
  (∀ hold e : Nat, ceilDiv (compareOf hold e) 2 = compareOf hold (e + 1)) ∧
  (∀ (t : DrainTimer) (hold : Nat), t.compare = compareOf hold t.range → t.compare ≤ t.counter → hold ≤ t.duration) ∧
  (∀ sensed : Nat, sensed ≤ 65472 →
    startRangeOf sensed ≤ 7 ∧ sensed * 2 / 2 ^ startRangeOf sensed ≤ 1023 ∧
      ∀ e : Nat, e < startRangeOf sensed → 1023 < sensed * 2 / 2 ^ e) ∧
  ∀ (s : State) (n : Nat) (k now : ClassEntry), s.classes[n]? = some now →
    s.teachClass (some n) (some k) none = s ∧
    (∀ d : Nat, now.edition ≠ k.edition → s.teachClass (some n) (some k) (some d) = s) ∧
    ∀ d : Nat, now.edition = k.edition → s.teachClass (some n) (some k) (some d) =
      { s with
        classes := s.classes.set n
          { now with prior := now.last, last := some d, count := min 2 (now.count + 1), startRange := startRangeOf d } }

/-! ### The hook weigher -/

/-- ZERO HOOK of a steady hook of an IDLE crane sets the zero to the mean raw count of the newest S samples, OVER samples among them
counted with their raw counts, and empties the ring and the held steady mean (with fewer samples than S in the ring the zero is
a free value; both are log 20); SET HOOK by the office sets zero and span, CALIBRATED and GOOD. Either writes the hook's store
item, whatever its values were, and no word of the item stays in error (that every word is written is read from R60 and R190:
log 13). A context that is not IDLE, an unsteady hook, a span of 0 and a hook of neither name are refused. -/
def Obligations.ZERO_HOOK_and_SET_HOOK_calibrate_an_idle_hook : Prop :=
  ∀ (c : Crane) (s : State),
    let h := s.hooks.get c
    let zeroed := fun z : Int =>
      (({ s with
        hooks := s.hooks.set c
          { h with cal := { h.cal with zero := z }, ring := [], steady := none, held := none, heldAge := 0 } } :
            State).writeNow [.hook c])
    let stored := fun (t : State) (cal : Calibration) =>
      (t.hooks.get c).cal = cal ∧ t.store.image.hooks.get c = cal ∧ ∀ u ∈ t.store.flips, u.key ≠ .hook c
    (s.takes c.port = true → (s.cranes.get c).state = .idle → h.steady.isSome = true →
      let n := s.settings.steadyCount
      ∃ z : Int, (n ≤ h.ring.length → z = roundDiv ((h.ring.drop (h.ring.length - n)).map Sample.raw).sum n) ∧
        (h.ring.length < n → -8388608 ≤ z ∧ z ≤ 8388607) ∧
        exec (.zeroHook c.port []) s = .next (s.accepted c.port (leSigned 3 z) (zeroed z)) ∧
        stored (s.accepted c.port (leSigned 3 z) (zeroed z)) { h.cal with zero := z }) ∧
    (s.takes c.port = true → (s.cranes.get c).state ≠ .idle →
      exec (.zeroHook c.port []) s = .next (s.replied c.port .wrongState [])) ∧
    (s.takes c.port = true → (s.cranes.get c).state = .idle → h.steady = none →
      exec (.zeroHook c.port []) s = .next (s.replied c.port .hookUnsteady [])) ∧
    ∀ body : List Byte, s.takes .office = true → body.length = 6 →
      let a := SetHookArgs.read body
      let cal : Calibration := { zero := a.zero, span := a.span, calibrated := true }
      let set : State :=
        ({ s with
          hooks := s.hooks.set c
            { cal := cal, health := .good, overRun := 0, goodRun := 0, ring := [], steady := none, held := none
              heldAge := 0 } } : State).writeNow [.hook c]
      ((a.hook ≠ 1 ∧ a.hook ≠ 2) ∨ a.span = 0 →
        exec (.setHook .office body) s = .next (s.replied .office .badValue [])) ∧
      (a.hook = hookCode c → a.span ≠ 0 → (s.cranes.get c).state ≠ .idle →
        exec (.setHook .office body) s = .next (s.replied .office .wrongState [])) ∧
      (a.hook = hookCode c → a.span ≠ 0 → (s.cranes.get c).state = .idle →
        exec (.setHook .office body) s = .next (s.accepted .office [] set) ∧ stored (s.accepted .office [] set) cal)

/-- One hook at a load scan: the sample by R57 and R58, the runs and the health by R59, the ring of 16, and the steady mean present
exactly when the hook is GOOD and its newest S samples are all good and within the band. -/
def Obligations.A_load_scan_weighs_a_hook : Prop :=
  ∀ (h : Hook) (t : Settings) (r : Reading), 1 ≤ t.steadyCount →
    let m := roundDiv ((r.raw.toInt - h.cal.zero) * h.cal.span) 65536
    let isOver := r.overload = true ∨ m < -50000 ∨ 600000 < m
    let h' := h.scan t r
    let last := h'.ring.drop (h'.ring.length - t.steadyCount)
    h'.cal = h.cal ∧
    (isOver → h'.overRun = min (h.overRun + 1) 65535 ∧ h'.goodRun = 0 ∧
      h'.ring = (h.ring ++ [({ raw := r.raw.toInt, mass := none } : Sample)]).drop (h.ring.length + 1 - 16)) ∧
    (¬isOver → h'.overRun = 0 ∧ h'.goodRun = min (h.goodRun + 1) 65535 ∧
      h'.ring = (h.ring ++ [({ raw := r.raw.toInt, mass := some m } : Sample)]).drop (h.ring.length + 1 - 16)) ∧
    (h.health = .good → (h'.health = .fault ↔ 5 ≤ h'.overRun)) ∧
    (h.health = .fault → (h'.health = .good ↔ 20 ≤ h'.goodRun ∧ h.cal.calibrated = true)) ∧
    (∀ v : Int, h'.steady = some v ↔
      h'.health = .good ∧ t.steadyCount ≤ h'.ring.length ∧ (∀ x ∈ last, x.mass.isSome = true) ∧
        (∀ x ∈ last, ∀ y ∈ last, x.mass.getD 0 - y.mass.getD 0 ≤ t.band) ∧
        v = roundDiv (last.map fun x => x.mass.getD 0).sum t.steadyCount) ∧
    (h'.steady.isSome = true → h'.held = h'.steady ∧ h'.heldAge = 0) ∧
    (h'.steady = none → h.health = .good → h'.health = .fault → h'.held = none) ∧
    (∀ v : Int, h'.steady = none → ¬(h.health = .good ∧ h'.health = .fault) → h.held = some v →
      h'.held = some v ∧ h'.heldAge = min (h.heldAge + 1) 65535)

/-- A load scan takes 100 ms off every running lapse timer and adds it to every running immersion timer, saturating at 65,535, to
the quiet timer and to the time since the last reconcile (log 3); an end whose timer reaches its limit expires, its OVERDIP
queued before the HOOK_FAULT notices of the scan (the model's choice, log 4); both hooks are weighed; a hook that enters FAULT
queues HOOK_FAULT to its crane, or to both cranes while a tandem entry is live, hook A's first (log 31); a scan that ends no
drain moves the drain watches and their timers on, both cranes' alike, and changes nothing else. A watch in BLANKING counts down
and its tail takes the scan's value; after blanking the scan count rises, a usable value enters an OPEN window and the tail, a
full window gives the last drop, an OVER sample empties the window, and the first sensed duration is captured in TIMED mode; a
hook of the watch that enters FAULT shuts it. (A lapse that the 100 ms bring is taken before the scan:
RELEASE_and_lapse_end_a_reservation, log 4.)
(An odd W: log 32.) -/
def Obligations.A_load_scan_without_a_drain_weighs_and_counts : Prop :=
  ∀ (s : State) (rA rB : Reading) (first : Crane), s.phase = .running → s.unsaved = [] → s.noLapse →
    let used := s.scannedHooks rA rB
    (∀ c : Crane, ¬scanEnds (s.watches.get c) (s.timers.get c) (used c)) →
      exec (.loadScan rA rB first) s = .next (s.endEvent
        { s.weighed rA rB with
          watches := ⟨s.watches.craneA.scannedBy (used .craneA), s.watches.craneB.scannedBy (used .craneB)⟩
          timers := ⟨s.timers.craneA.scannedBy s.watches.craneA (used .craneA),
            s.timers.craneB.scannedBy s.watches.craneB (used .craneB)⟩ } .loadScan)

/-! ### The bath book -/

/-- Every flow books its total, held at 2^47 - 1; a debit of more than M sets M to 0 and takes the shortfall from adjusted, a credit
past 4,294,967,295 sets M to it and adds the excess to adjusted, which is held at 2^47 - 1 of either sign, in every book state;
and SATURATED is set when a total or adjusted would pass its bound. -/
def Obligations.Flows_book_their_totals_and_clamp_M : Prop :=
  ∀ (b : Book) (d : Nat),
    let short : Int := (d : Int) - b.mass
    let excess : Int := (b.mass : Int) + d - 4294967295
    let bound : Int := 140737488355327
    let held := fun v : Nat => min v 140737488355327
    let past := fun v : Nat => 140737488355327 < v
    let kept := fun a : Int => max (-bound) (min bound a)
    let broken := fun a : Int => a < -bound ∨ bound < a
    let debited := fun (x : Book) (total : Nat) =>
      x.mass = b.mass - d ∧ x.adjusted = (if b.mass < d then kept (b.adjusted - short) else b.adjusted) ∧
      (x.saturated = true ↔
        b.saturated = true ∨ past (total + d) ∨ (b.mass < d ∧ broken (b.adjusted - short)));
    debited (b.pickupFlow d) b.picked ∧ debited (b.drossFlow d) b.dross ∧ debited (b.ashFlow d) b.ash ∧
    b.pickupFlow d =
      { b with
        picked := held (b.picked + d), mass := (b.pickupFlow d).mass, adjusted := (b.pickupFlow d).adjusted
        saturated := (b.pickupFlow d).saturated } ∧
    b.drossFlow d =
      { b with
        dross := held (b.dross + d), mass := (b.drossFlow d).mass, adjusted := (b.drossFlow d).adjusted
        saturated := (b.drossFlow d).saturated } ∧
    b.ashFlow d =
      { b with
        ash := held (b.ash + d), mass := (b.ashFlow d).mass, adjusted := (b.ashFlow d).adjusted
        saturated := (b.ashFlow d).saturated } ∧
    b.chargeFlow d =
      { b with
        charged := held (b.charged + d)
        mass := min (b.mass + d) 4294967295
        adjusted := if 0 < excess then kept (b.adjusted + excess) else b.adjusted
        saturated := b.saturated || decide (past (b.charged + d)) ||
          decide (0 < excess ∧ broken (b.adjusted + excess)) } ∧
    b.addUnallocated d =
      { b with
        unallocated := held (b.unallocated + d)
        saturated := b.saturated || decide (past (b.unallocated + d)) }

/-- SKIM books the ash fraction of the mass, taken as at most 20,000, and refuses a mass of 0. REBASE moves M to the most recent
gauge mass, the difference into adjusted, which is held at 2^47 - 1 of either sign with SATURATED set where it would pass that,
and makes the book VALID; without a gauge mass it is refused. OPEN BOOK opens a new
account at the mass given. Each judges the feed-demand line. RECONCILE NOW sets pending while the kettle is judged quiet and
still, and is refused otherwise. (The widths of the answers are the model's choice, log 21: SKIM's mass and Za four signed bytes
each, REBASE's difference eight.) -/
def Obligations.Book_requests_skim_rebase_open_and_ask_to_reconcile : Prop :=
  ∀ s : State,
    (∀ body : List Byte, s.takes .feed = true → body.length = 2 →
      let m := min (readU16 body) 20000
      let za := m * s.settings.ashFraction / 256
      (readU16 body = 0 → exec (.skim .feed body) s = .next (s.replied .feed .badValue [])) ∧
      (readU16 body ≠ 0 → exec (.skim .feed body) s = .next (s.accepted .feed (massBytes m ++ massBytes za)
        { s.withBook (s.book.ashFlow za) with records := s.records.push (.skim m za) }))) ∧
    (s.takes .office = true →
      (∀ g : Nat, s.recon.gauge = some g →
        let d : Int := (s.book.mass : Int) - g
        let bound : Int := 140737488355327
        let moved := s.book.adjusted + d
        exec (.rebase .office []) s = .next (s.accepted .office (leSigned 8 d)
          (s.withBook
            { s.book with
              mass := g, state := .valid, adjusted := max (-bound) (min bound moved)
              saturated := s.book.saturated || decide (moved < -bound ∨ bound < moved) }))) ∧
      (s.recon.gauge = none → exec (.rebase .office []) s = .next (s.replied .office .wrongState [])) ∧
      (∀ body : List Byte, body.length = 4 →
        exec (.openBook .office body) s = .next (s.accepted .office []
          { s.withBook
              { mass := readU32 body, state := .valid, saturated := false, opening := readU32 body, charged := 0
                picked := 0, dross := 0, ash := 0, unallocated := 0, adjusted := 0 } with
            records := s.records.push (.bookOpened (readU32 body)) })) ∧
      (s.recon.judgedQuiet = true → s.still = true →
        exec (.reconcileNow .office []) s =
          .next (s.accepted .office [] { s with recon := { s.recon with pending := true } })) ∧
      (s.recon.judgedQuiet = false ∨ s.still = false →
        exec (.reconcileNow .office []) s = .next (s.replied .office .wrongState [])))

/-- A bath scan brings a level and a temperature, each valid or not: the runs and the health of its channel by R118, the level
history and the stored temperature by R119 and R120, a channel that enters FAULT losing what it stored. While the kettle is not
still, or its quiet timer is absent or less than Q, or its temperature as the scan leaves it is not OK (the channel in FAULT, no
temperature stored, one older than 60 bath scans, or one outside the window), it is judged not quiet: the levels since quiet began
become 0, no request to reconcile stands, and the book stays as it is. A quiet scan that does not reconcile raises that count by a stored level, keeps it
without one, or sets it to 0 where the level channel enters FAULT, and leaves the book as it is. It reconciles when the kettle is quiet, 16 levels of the quiet spell are stored and none was reconciled yet, the interval is
over or a request stands: G from the mean of the 16 levels, D = M - G; an INVALID book is reseeded from G, a book within the
alarm is trimmed by the limited A, which lies between M and G, and a book beyond it becomes DRIFTING, with its DRIFT notice to
feed and office; and the feed-demand line is judged. -/
def Obligations.A_bath_scan_reconciles_a_quiet_kettle_only : Prop :=
  (∀ (s : State) (rl rt : Reading), s.phase = .running → s.linesLawful →
    let lv := (rl.raw.toInt - s.settings.levelZero) * s.settings.levelSpan / 65536
    let tv := (rt.raw.toInt - s.settings.tempZero) * s.settings.tempSpan / 65536
    let levelGood := rl.overload = false ∧ 0 ≤ lv ∧ lv ≤ 40000
    let tempGood := rt.overload = false ∧ 0 ≤ tv ∧ tv ≤ 8000
    let counted := fun (old new : Channel) (valid : Prop) =>
      (valid → new.validRun = min (old.validRun + 1) 65535 ∧ new.invalidRun = 0) ∧
      (¬valid → new.invalidRun = min (old.invalidRun + 1) 65535 ∧ new.validRun = 0) ∧
      (old.health = .good → (new.health = .fault ↔ 5 ≤ new.invalidRun)) ∧
      (old.health = .fault → (new.health = .good ↔ 20 ≤ new.validRun));
    ∃ t : State, exec (.bathScan rl rt []) s = .next t ∧
      counted s.bath.level t.bath.level levelGood ∧ counted s.bath.temp t.bath.temp tempGood ∧
      t.bath.levels =
        (if levelGood ∧ t.bath.level.health = .good then
          (s.bath.levels ++ [lv.toNat]).drop (s.bath.levels.length + 1 - 16)
        else if s.bath.level.health = .good ∧ t.bath.level.health = .fault then [] else s.bath.levels) ∧
      (tempGood ∧ t.bath.temp.health = .good → t.bath.stored = some tv.toNat ∧ t.bath.age = 0) ∧
      (¬(tempGood ∧ t.bath.temp.health = .good) →
        t.bath.stored =
          (if s.bath.temp.health = .good ∧ t.bath.temp.health = .fault then none else s.bath.stored) ∧
        (t.bath.stored ≠ none → t.bath.age = min (s.bath.age + 1) 65535)) ∧
      let tempOk := t.bath.temp.health = .good ∧ t.bath.age ≤ 60 ∧
        ∃ v ∈ t.bath.stored, s.settings.tempLow ≤ v ∧ v ≤ s.settings.tempHigh
      ((s.still = false ∨ (∀ q ∈ s.recon.quiet, q < s.settings.quietTime * 10) ∨ ¬tempOk) →
        t = { s with
          bath := t.bath
          recon := { s.recon with quietLevels := 0, judgedQuiet := false, pending := false }
          store := t.store, scrubAt := t.scrubAt, unsaved := t.unsaved, lines := t.lines }) ∧
      (s.still = true → (∃ q ∈ s.recon.quiet, s.settings.quietTime * 10 ≤ q) → tempOk →
        let n := if levelGood ∧ t.bath.level.health = .good then min (s.recon.quietLevels + 1) 65535
          else if s.bath.level.health = .good ∧ t.bath.level.health = .fault then 0 else s.recon.quietLevels
        (n < 16 ∨ (s.recon.pending = false ∧ ∃ m : Nat, s.recon.since = some m ∧ m < s.settings.interval * 600)) →
        t = { s with
          bath := t.bath
          recon := { s.recon with quietLevels := n, judgedQuiet := true }
          store := t.store, scrubAt := t.scrubAt, unsaved := t.unsaved, lines := t.lines })) ∧
  (∀ (s : State) (rl rt : Reading) (lv tv q : Nat), s.scansBath rl rt lv tv → s.still = true → s.linesLawful →
    s.recon.quiet = some q → s.settings.quietTime * 10 ≤ q → s.settings.tempLow ≤ tv → tv ≤ s.settings.tempHigh →
    (s.recon.quietLevels < 15 ∨
      (s.recon.pending = false ∧ ∃ m : Nat, s.recon.since = some m ∧ m < s.settings.interval * 600) →
      ∃ t : State, exec (.bathScan rl rt []) s = .next t ∧
        t = { s with
          bath := s.bath.taken lv tv
          recon := { s.recon with quietLevels := min (s.recon.quietLevels + 1) 65535, judgedQuiet := true }
          store := t.store, scrubAt := t.scrubAt, lines := t.lines }) ∧
    (s.recon.quietLevels < 16 → s.bath.level.invalidRun < 4 →
      ∃ t : State, exec (.bathScan { rl with overload := true } rt []) s = .next t ∧ t.bath.levels = s.bath.levels ∧
        t = { s with
          bath := t.bath, recon := { s.recon with judgedQuiet := true }
          store := t.store, scrubAt := t.scrubAt, lines := t.lines })) ∧
  ∀ (s : State) (rl rt : Reading) (lv tv q : Nat), s.scansBath rl rt lv tv → s.still = true →
    s.recon.quiet = some q → s.settings.quietTime * 10 ≤ q → s.settings.tempLow ≤ tv → tv ≤ s.settings.tempHigh →
    15 ≤ s.recon.quietLevels → s.settings.trimGain ≤ 16 →
    (s.recon.since = none ∨ s.recon.pending = true ∨ ∃ m : Nat, s.recon.since = some m ∧ s.settings.interval * 600 ≤ m) →
    let lm := ((s.bath.levels ++ [lv]).drop (s.bath.levels.length + 1 - 16)).sum / 16
    let g := (lm - s.settings.floorLevel) * s.settings.areaDensity / 256
    let d : Int := (s.book.mass : Int) - g
    let a : Int := max (-(s.settings.maxTrim : Int)) (min s.settings.maxTrim ((d * s.settings.trimGain).tdiv 16))
    let bound : Int := 140737488355327
    ∃ t : State, exec (.bathScan rl rt []) s = .next t ∧
      t.recon =
        { gauge := some g, diff := some d, since := some 0, pending := false, quiet := some q
          quietLevels := min (s.recon.quietLevels + 1) 65535, judgedQuiet := true } ∧
      (s.book.state = .invalid →
        t.book =
          { mass := g, state := .valid, saturated := s.book.saturated, opening := g, charged := 0, picked := 0, dross := 0
            ash := 0, unallocated := 0, adjusted := 0 } ∧
        t.records = s.records.push (.bookOpened g) ∧ t.notices = (s.withBook t.book).notices) ∧
      (s.book.state ≠ .invalid → d.natAbs ≤ s.settings.alarm →
        ((t.book.mass : Int) = s.book.mass - a ∧ (g ≤ t.book.mass ∧ t.book.mass ≤ s.book.mass ∨
          s.book.mass ≤ t.book.mass ∧ t.book.mass ≤ g)) ∧
        t.book =
          { s.book with
            mass := t.book.mass, state := .valid, adjusted := max (-bound) (min bound (s.book.adjusted + a))
            saturated := s.book.saturated || decide (s.book.adjusted + a < -bound ∨ bound < s.book.adjusted + a) } ∧
        t.records = (if s.settings.tolerance < d.natAbs then s.records.push (.trim d a) else s.records) ∧
        t.notices = (s.withBook t.book).notices) ∧
      (s.book.state ≠ .invalid → s.settings.alarm < d.natAbs →
        t.book = { s.book with state := .drifting } ∧ t.records = s.records.push (.drift d g) ∧
        t.notices =
          (({ s with
            notices :=
              { s.notices with feed := s.notices.feed.push (.drift d), office := s.notices.office.push (.drift d) } } :
                State).withBook t.book).notices) ∧
      t.lines.feed = (s.withBook t.book).lines.feed ∧
      t = { s with
        bath := s.bath.taken lv tv, recon := t.recon, book := t.book, records := t.records, notices := t.notices
        store := t.store, scrubAt := t.scrubAt, unsaved := t.unsaved, lines := t.lines }

/-! ### Jobs and dross shares -/

/-- The shares of a dross zinc over a period list: each the floor of its part, with one unit more for each of the first r
entries, r the remainder, which is below the number of entries; they sum exactly to the dross zinc, and neither job numbers
nor slot indices enter into them. (Every list whose black masses do not sum to 0.) -/
def Obligations.Shares_sum_exactly_to_the_dross_zinc : Prop :=
  ∀ (zc : Nat) (period : List PeriodEntry), (∃ e ∈ period, 0 < e.black) →
    let b := (period.map PeriodEntry.black).sum
    let floors := period.map fun e => zc * e.black / b
    let r := zc - floors.sum
    floors.sum ≤ zc ∧ r < period.length ∧ (sharesOf zc period).sum = zc ∧
    (sharesOf zc period).length = period.length ∧
    (∀ (k : Nat) (e : PeriodEntry), period[k]? = some e →
      (sharesOf zc period)[k]? = some (zc * e.black / b + if k < r then 1 else 0)) ∧
    ∀ other : List PeriodEntry, other.map PeriodEntry.black = period.map PeriodEntry.black →
      sharesOf zc other = sharesOf zc period

/-- OPEN JOB opens the lowest FREE slot. CLOSE JOB in WAIT mode makes an OPEN slot CLOSING and closes it at once without open dip
and period entry; in NOW mode it takes the slot's period entry out, marks DROSS_UNALLOCATED, and closes it. A close queues
JOB_CLOSED as record and notice; it is refused, in this order, with BAD_VALUE for a mode or a job number out of range, NO_JOB for
a number that names no slot, WRONG_STATE for a CLOSED slot, and NOW with DIPS_OPEN while a dip is open. REMOVE JOB frees a CLOSED or DAMAGED slot. -/
def Obligations.Job_requests_open_close_and_remove : Prop :=
  ∀ s : State, s.takes .office = true →
    (∀ body : List Byte, body.length = 4 →
      let a := JobArgs.read body
      (a.job = 0 ∨ 999999 < a.job ∨ 15 < a.other →
        exec (.openJob .office body) s = .next (s.replied .office .badValue [])) ∧
      (1 ≤ a.job → a.job ≤ 999999 → a.other ≤ 15 →
        (∀ i : Nat, s.slotOf a.job = some i →
          exec (.openJob .office body) s = .next (s.replied .office .duplicate [])) ∧
        (s.slotOf a.job = none → (∀ j ∈ s.jobs, j.state ≠ .free) →
          exec (.openJob .office body) s = .next (s.replied .office .tableFull [])) ∧
        ∀ i : Nat, s.slotOf a.job = none → i < s.jobs.length → (s.job i).state = .free →
          (∀ k : Nat, k < i → (s.job k).state ≠ .free) →
          exec (.openJob .office body) s = .next (s.accepted .office (u8 i)
            { s with
              jobs := s.jobs.modify i fun _ =>
                { JobSlot.vacant .opened with number := some a.job, defaultClass := some a.other } }))) ∧
    (∀ body : List Byte, body.length = 4 →
      let a := JobArgs.read body
      let named := (a.other = 1 ∨ a.other = 2) ∧ 1 ≤ a.job ∧ a.job ≤ 999999
      let refused := fun st : Status => exec (.closeJob .office body) s = .next (s.replied .office st [])
      (¬named → refused .badValue) ∧ (named → s.slotOf a.job = none → refused .noJob) ∧
      ∀ i : Nat, named → s.slotOf a.job = some i → (s.job i).state = .closed → refused .wrongState) ∧
    (∀ (body : List Byte) (i : Nat), body.length = 4 →
      let a := JobArgs.read body
      let closed := fun (j : JobSlot) (period : List PeriodEntry) =>
        ({ s with
          jobs := s.jobs.set i { j with state := .closed }
          period := period
          records := s.records.push (.jobClosed (j.closedRecord i))
          notices := s.notices.set .office ((s.notices.get .office).push (.jobClosed a.job)) } : State)
      1 ≤ a.job → a.job ≤ 999999 → s.slotOf a.job = some i → (s.job i).number = some a.job →
      ((s.job i).state = .opened ∨ (s.job i).state = .closing) →
      (a.other = 1 → (s.job i).openDips = 0 → (∀ e ∈ s.period, e.slot ≠ i) →
        exec (.closeJob .office body) s = .next (s.accepted .office [4] (closed (s.job i) s.period))) ∧
      (a.other = 1 → (0 < (s.job i).openDips ∨ ∃ e ∈ s.period, e.slot = i) →
        exec (.closeJob .office body) s = .next (s.accepted .office [3]
          { s with jobs := s.jobs.set i { s.job i with state := .closing } })) ∧
      (a.other = 2 → 0 < (s.job i).openDips →
        exec (.closeJob .office body) s = .next (s.replied .office .dipsOpen [])) ∧
      (a.other = 2 → (s.job i).openDips = 0 → (∃ e ∈ s.period, e.slot = i) →
        exec (.closeJob .office body) s = .next (s.accepted .office [4, 1]
          (closed { s.job i with drossUnallocated := true } (s.period.filter fun e => e.slot != i)))) ∧
      (a.other = 2 → (s.job i).openDips = 0 → (∀ e ∈ s.period, e.slot ≠ i) →
        exec (.closeJob .office body) s = .next (s.accepted .office [4, 0] (closed (s.job i) s.period)))) ∧
    ∀ b : Byte,
      (63 < b.toNat → exec (.removeJob .office [b]) s = .next (s.replied .office .badValue [])) ∧
      (b.toNat ≤ 63 → ((s.job b.toNat).state = .closed ∨ (s.job b.toNat).state = .damaged) →
        exec (.removeJob .office [b]) s =
          .next (s.accepted .office [] { s with jobs := s.jobs.set b.toNat (JobSlot.vacant .free) })) ∧
      (b.toNat ≤ 63 → (s.job b.toNat).state ≠ .closed → (s.job b.toNat).state ≠ .damaged →
        exec (.removeJob .office [b]) s = .next (s.replied .office .wrongState []))

/-! ### Kettle mode, settings and classes -/

/-- RESUME in HELD makes a CONFIRMED kettle RUN with a RESUMED notice to every port, is refused in STOPPED and then when the setup
is UNCONFIRMED, and changes nothing in RUN. HOLD makes RUN HELD without a notice. A fall of the stop input makes the mode
STOPPED, marks the entries in LOWERING and IMMERSED and tells every port the mode it ended; a rise makes STOPPED HELD. (That a
rise in another mode changes the input's level alone is read from R164 and R165: log 25.) -/
def Obligations.RESUME_HOLD_and_the_stop_input_move_the_mode : Prop :=
  ∀ s : State,
    (s.takes .office = true →
      (s.mode = .stopped → exec (.resume .office []) s = .next (s.replied .office .kettleNotRun [])) ∧
      (s.mode ≠ .stopped → s.setup.confirmed = false →
        exec (.resume .office []) s = .next (s.replied .office .wrongState [])) ∧
      (s.mode = .run → s.setup.confirmed = true → exec (.resume .office []) s = .next (s.accepted .office [] s)) ∧
      (s.mode = .held → s.setup.confirmed = true →
        exec (.resume .office []) s = .next (s.accepted .office []
          { s with
            mode := .run
            notices :=
              { craneA := s.notices.craneA.push .resumed, craneB := s.notices.craneB.push .resumed
                feed := s.notices.feed.push .resumed, office := s.notices.office.push .resumed } })) ∧
      (s.mode = .stopped → exec (.hold .office []) s = .next (s.replied .office .kettleNotRun [])) ∧
      (s.mode = .held → exec (.hold .office []) s = .next (s.accepted .office [] s)) ∧
      (s.mode = .run → exec (.hold .office []) s = .next (s.accepted .office [] { s with mode := .held }))) ∧
    (s.phase = .running →
      let low : State := { s with inputs := { s.inputs with stopLow := true } }
      let high : State := { s with inputs := { s.inputs with stopLow := false } }
      let marked := fun x : CraneContext =>
        if x.state = .lowering ∨ x.state = .immersed then
          { x with flags := { x.flags with stopDuring := true }, demand := { x.demand with stop := true } }
        else x
      (s.mode ≠ .stopped →
        exec .stopFall s = .next (low.endEvent
          { low with
            mode := .stopped
            cranes := ⟨marked s.cranes.craneA, marked s.cranes.craneB⟩
            notices :=
              { craneA := s.notices.craneA.push (.stopped s.mode), craneB := s.notices.craneB.push (.stopped s.mode)
                feed := s.notices.feed.push (.stopped s.mode), office := s.notices.office.push (.stopped s.mode) } }
          .lapse)) ∧
      (s.mode = .stopped → exec .stopRise s = .next (high.endEvent { high with mode := .held } .lapse)) ∧
      (s.mode ≠ .stopped → exec .stopRise s = .next (high.endEvent high .lapse)))

/-- TUNE KETTLE gives every setting of its list the value given and keeps the others, answers how many changed, empties the level
history and takes the levels since quiet began to 0 when the level calibration changes, makes the stored temperature absent when
the temperature calibration changes, and judges the feed-demand line when its mark changes, with a FEED_LOW notice if it rises;
a list with a number, a value or a temperature window out of range, or a number twice, is refused whole. -/
def Obligations.TUNE_KETTLE_sets_its_list_or_nothing : Prop :=
  ∀ (body : List Byte) (s : State), s.takes .office = true → Request.tuneKettle.lengthOk body.length = true →
    let ps := TunePair.readAll body
    let new := ps.foldl (fun t p => t.put p.number p.value) s.settings
    let fits := (∀ p ∈ ps, 1 ≤ p.number ∧ p.number ≤ 21 ∧ (settingRange p.number).1 ≤ p.value ∧
        p.value ≤ (settingRange p.number).2) ∧
      (ps.map TunePair.number).Nodup ∧ new.tempLow ≤ new.tempHigh
    let sameLevel := new.levelZero = s.settings.levelZero ∧ new.levelSpan = s.settings.levelSpan
    let sameTemp := new.tempZero = s.settings.tempZero ∧ new.tempSpan = s.settings.tempSpan
    let high :=
      if new.feedLow = s.settings.feedLow then s.lines.feed
      else decide (s.book.state ≠ .invalid) && decide (s.book.mass < new.feedLow)
    (¬fits → exec (.tuneKettle .office body) s = .next (s.replied .office .badValue [])) ∧
    (fits →
      (∀ p ∈ ps, new.get p.number = p.value) ∧
      (∀ n : Nat, (∀ p ∈ ps, p.number ≠ n) → new.get n = s.settings.get n) ∧
      exec (.tuneKettle .office body) s = .next (s.accepted .office
        [BitVec.ofNat 8 (settingNumbers.countP fun n => new.get n != s.settings.get n)]
        { s with
          settings := new
          bath :=
            { s.bath with
              levels := if sameLevel then s.bath.levels else []
              stored := if sameTemp then s.bath.stored else none
              age := if sameTemp then s.bath.age else 0 }
          recon := { s.recon with quietLevels := if sameLevel then s.recon.quietLevels else 0 }
          lines := { s.lines with feed := high }
          notices :=
            if high = true ∧ s.lines.feed = false then s.notices.set .feed (s.notices.feed.push (.feedLow s.book.mass))
            else s.notices }))

/-- SET CLASS gives a class its nine fields; a change of drain mode, B, W or T raises the edition, from 255 on to 0, clears the
history and sets the start range to 3, and any other change keeps them. A number or a field out of range is refused. No
context's snapshot changes. -/
def Obligations.SET_CLASS_redefines_a_class : Prop :=
  ∀ (body : List Byte) (s : State) (k : ClassEntry), s.takes .office = true → body.length = 14 →
    let a := SetClassArgs.read body
    let fits := a.number ≤ 15 ∧ 1 ≤ a.immLimit ∧ a.immMin ≤ a.immLimit ∧ (1 ≤ a.drainMode ∧ a.drainMode ≤ 3) ∧
      (a.basis = 1 ∨ a.basis = 2) ∧ 4 ≤ a.window ∧ a.window ≤ 32 ∧ a.window % 2 = 0
    (¬fits → exec (.setClass .office body) s = .next (s.replied .office .badValue [])) ∧
    (fits → s.classes[a.number]? = some k →
      let mode := if a.drainMode = 1 then DrainMode.sensed else if a.drainMode = 2 then .timed else .either
      let given : ClassEntry :=
        { k with
          immMin := a.immMin, immLimit := a.immLimit, drainMode := mode, holdFactor := a.holdFactor
          basis := if a.basis = 1 then .last else .prior
          initialHold := a.initialHold, blanking := a.blanking, window := a.window, threshold := a.threshold }
      let new : ClassEntry :=
        if mode = k.drainMode ∧ a.blanking = k.blanking ∧ a.window = k.window ∧ a.threshold = k.threshold then given
        else { given with edition := (k.edition + 1) % 256, count := 0, last := none, prior := none, startRange := 3 }
      exec (.setClass .office body) s =
        .next (s.accepted .office (u8 new.edition) { s with classes := s.classes.set a.number new }))

/-! ### Records and notices -/

/-- A record joins the tail of a queue of fewer than 32 with the lost count as its gap, or is counted; a notice joins the tail of
a queue of fewer than 16, or sets the overflow flag. TAKE RECORDS removes whole records from the head, as many as asked for,
as stand there and as fit in 1024 bytes; TAKE NOTICE removes up to four and clears the flag.
(The queue's count of records offered is the model's own: log 12.) -/
def Obligations.Queues_join_at_the_tail_and_leave_at_the_head : Prop :=
  (∀ (q : RecordQueue) (b : RecordBody),
    (q.items.length < 32 → q.push b =
      { items := q.items ++ [{ gap := if 0 < q.lost then some q.lost else none, body := b }], lost := 0
        offered := q.offered + 1 }) ∧
    (32 ≤ q.items.length → q.push b = { q with lost := min (q.lost + 1) 65535, offered := q.offered + 1 })) ∧
  (∀ (q : NoticeQueue) (n : Notice),
    (q.items.length < 16 → q.push n = { q with items := q.items ++ [n] }) ∧
    (16 ≤ q.items.length → q.push n = { q with overflow := true })) ∧
  (∀ (s : State) (b : Byte), s.takes .office = true →
    (b.toNat = 0 ∨ 8 < b.toNat → exec (.takeRecords .office [b]) s = .next (s.replied .office .badValue [])) ∧
    (1 ≤ b.toNat → b.toNat ≤ 8 →
      ∃ k : Nat, k ≤ b.toNat ∧ k ≤ s.records.items.length ∧
        ((s.records.items.take k).flatMap Record.bytes).length ≤ 1020 ∧
        (k = b.toNat ∨ k = s.records.items.length ∨
          1020 < ((s.records.items.take (k + 1)).flatMap Record.bytes).length) ∧
        exec (.takeRecords .office [b]) s = .next (s.accepted .office
          (u8 k ++ u8 (s.records.items.length - k) ++ u16 s.records.lost ++
            (s.records.items.take k).flatMap Record.bytes)
          { s with records := { s.records with items := s.records.items.drop k } }))) ∧
  ∀ (s : State) (p : Port), s.takes p = true →
    let q := s.notices.get p
    exec (.takeNotice p []) s = .next (s.accepted p
      (u8 (min 4 q.items.length) ++ u8 (q.items.length - 4) ++ u8 (if q.overflow then 1 else 0) ++
        (q.items.take 4).flatMap Notice.bytes)
      { s with notices := s.notices.set p { items := q.items.drop 4, overflow := false } })

/-! ### The account store and restart -/

/-- A flush, by a fall of the supply-fail input or an assertion of the reset input, stops the part with its lines held and the
store holding every working copy; the restart that the release of the same input, or power-on, begins brings every durable
state back, abandons the live entries into the RESTART record, and comes up HELD, whatever was in flight. A flush that finds a
request PENDING makes its changes, as a write of that request would have made them, and makes them durable; its answer is not
delivered, and the slot comes up EMPTY. A restart with the stop
input low then takes its fall: STOPPED, told to every port after the other restart notices. A restart cut short leaves the part
stopped, and the restart after it brings up what the whole one would have; one cut after the RESTART record was queued leaves the
next nothing to abandon. (A flush and a restart are one step each, a cut after any item of a store without errors: log 14,
log 17.) -/
def Obligations.A_flush_and_a_restart_keep_every_durable_state : Prop :=
  let causes : List (Instr × Instr) := [(.supplyFailFall, .supplyFailRise [] none), (.supplyFailFall, .powerOn [] none),
    (.resetAssert, .resetRelease [] none)]
  let brought := fun (s u : State) =>
    u.phase = .running ∧ u.mode = .held ∧ u.setup = s.setup ∧ u.settings = s.settings ∧
      (∀ c : Crane, (u.hooks.get c).cal = (s.hooks.get c).cal ∧ (u.cranes.get c).state = .idle ∧
        (u.cranes.get c).lapseMark = none ∧ (u.timers.get c).state = .stopped ∧ (u.watches.get c).phase = .inactive) ∧
      u.feed.reserved = false ∧ u.classes = s.classes ∧ u.jobs = s.jobs.map (fun j => { j with openDips := 0 }) ∧
      u.period = s.period ∧ u.book = s.book ∧ u.foul = s.foul ∧ u.counter = s.counter ∧ u.live = [] ∧
      u.records = s.records.push (.restart s.live []) ∧ u.damage = [] ∧ u.store.image = u.image ∧ u.linesLawful
  (∀ (s : State) (down up : Instr), s.phase = .running → s.storeCurrent → s.restorable → (down, up) ∈ causes →
    ∃ t : State, exec down s = .next t ∧ t.phase = .flushed ∧ t.lines = Lines.down ∧ t.store = { image := s.image, flips := [] } ∧ t.unsaved = [] ∧
    ∃ u : State, exec up t = .next u ∧ brought s u) ∧
  (∀ (s : State) (down up : Instr) (p : Port) (r : Request) (body : List Byte), s.phase = .running → s.storeCurrent →
    s.store.flips = [] → (∀ q : Port, (s.engines.get q).slot.isPending = false) →
    r.roles.permits p = true → r.lengthOk body.length = true → (down, up) ∈ causes →
    let waiting := s.setSlot p (.pending r body)
    let made := s.writeRequest p r body
    made.restorable →
    ∃ t : State, exec down waiting = .next t ∧ t.phase = .flushed ∧ t.store = { image := made.image, flips := [] } ∧
      t = { made with
        phase := .flushed, inputs := t.inputs, engines := made.engines.dropTransfers, lines := Lines.down, store := t.store
        unsaved := [], flush := t.flush } ∧
      ∃ u : State, exec up t = .next u ∧ brought made u ∧ ∀ q : Port, (u.engines.get q).slot = .empty) ∧
  (∀ s : State, s.phase = .flushed → s.inputs.resetAsserted = false → s.inputs.stopLow = true →
    ∃ u v : State, exec (.powerOn [] none) s = .next u ∧
      exec (.powerOn [] none) { s with inputs := { s.inputs with stopLow := false } } = .next v ∧ v.mode = .held ∧
      u = { v with
        mode := .stopped, inputs := { v.inputs with stopLow := true }, lines := u.lines
        notices :=
          { craneA := v.notices.craneA.push (.stopped .held), craneB := v.notices.craneB.push (.stopped .held)
            feed := v.notices.feed.push (.stopped .held), office := v.notices.office.push (.stopped .held) } } ∧
      u.lines.permit = ⟨false, false⟩ ∧ u.lines.wdraw = ⟨false, false⟩ ∧ ∀ p : Port, u.lines.call.get p = true) ∧
  ∀ (s : State) (cut : RestartCut) (up : Instr), s.phase = .flushed → s.store.flips = [] → s.inputs.resetAsserted = false →
    (cut.cause, up) ∈ [(CutCause.supplyFail, Instr.supplyFailRise [] none), (.reset, .resetRelease [] none)] →
    ∃ t : State, exec (.powerOn [] (some cut)) s = .next t ∧ t.phase = .flushed ∧
      t = { s with
        store := t.store, flush := none
        inputs :=
          { s.inputs with
            supplyLost := false
            supFailLow := decide (cut.cause = .supplyFail), resetAsserted := decide (cut.cause = .reset) } } ∧
      (cut.after ≤ restartItems.length → exec up t = exec (.powerOn [] none) s) ∧
      (restartItems.length < cut.after → ∃ u v : State, exec (.powerOn [] none) s = .next v ∧ exec up t = .next u ∧
        u.records = v.records.push (.restart [] []) ∧
        u = { v with records := u.records, store := u.store, lines := u.lines })

/-- A store word with one bit in error changes nothing at restart. Two bits in error damage their item, of whichever region: it
takes the value that R195 gives it, every other item is restored, the damage stands in the RESTART record, in the store damage
flags and in a STORE_DAMAGE notice, and the store is sound. The scrub visits one word at each bath scan: a sound word is left, a
corrected one is written back, so that it has no bit in error any more and the store reads as it did, be the correction right or
wrong (with three or more bits in error, log 10), a damaged one, and that word alone, is written back from the working copy, with
which the item then agrees where the store followed the working copies (Store_follows_the_working_copies), and every other word is
left. A
collapse stops every part with its supply lost, whatever state the part was in: of a step that the flush had to write it leaves
the first writes, in the order in which the flush makes them, as made, and every item after the one being written as the flush
found it, with an item that the write would have left at its value; a job slot being written keeps its number and its state
where the change alters neither them nor its default class; of records being queued, the first ones stand, and the next one too when
all its words are new, but not when all are still old. A collapse of a running part is a flush first, and a part without flush work changes in
its supply alone (both are the model's choice, log 15). (The store's words, their disturbances and the order within a step are
coded by log 9 to log 12.) -/
def Obligations.Errors_and_a_collapse_reach_the_items_they_strike : Prop :=
  (∀ (s : State) (u : Upset), s.phase = .flushed → s.store.flips = [] → errorCount u.bits = 1 →
    s.inputs.resetAsserted = false →
    ∃ t : State, exec (.powerOn [u] none) s = .next t ∧ exec (.powerOn [] none) s = .next t ∧ t.phase = .running) ∧
  (∀ (s : State) (u : Upset), s.phase = .flushed → s.store.flips = [] → s.store.image.fits → s.store.image.names u →
    errorCount u.bits = 2 → s.inputs.resetAsserted = false → s.inputs.stopLow = false →
    let img := s.store.image.struck u
    ∃ t : State, exec (.powerOn [u] none) s = .next t ∧ t.phase = .running ∧ t.mode = .held ∧
      t.image = { img with
        jobs := img.jobs.map fun j => { j with openDips := 0 }
        period := img.period.filter fun e => ∃ j ∈ img.jobs[e.slot]?, j.state = .opened ∨ j.state = .closing
        live := []
        records := img.records.push (.restart img.live [damageOf u]) } ∧
      t.damage = [regionOf u.key] ∧ t.store = { image := t.image, flips := [] } ∧
      .storeDamage 1 ∈ (t.notices.get .office).items ∧
      (∀ c : Crane, u.key = .hook c → (t.hooks.get c).health = .fault ∧ .hookFault c ∈ (t.notices.get c.port).items) ∧
      (u.key = .book → .bookInvalid ∈ (t.notices.get .feed).items ∧ .bookInvalid ∈ (t.notices.get .office).items) ∧
      ∀ i : Nat, i < 16 → (t.lanes[i]?).map Lane.holder =
        some (if ∃ it ∈ t.foul, it.f ≤ i ∧ i ≤ it.l then .foul else .free)) ∧
  (∀ (s : State) (rl rt : Reading) (w : StoreKey × Nat × Nat), s.phase = .running → s.unsaved = [] →
    s.store.image.classes.length = s.classes.length → s.store.image.jobs.length = s.jobs.length →
    wordAt storeBlocks s.scrubAt = some w →
    let here := fun b : BadWord => b.key = w.1 ∧ b.pos = w.2.1 ∧ b.word = w.2.2
    let others := s.store.flips.filter fun b => !decide (here b)
    ∃ t : State, exec (.bathScan rl rt []) s = .next t ∧ t.scrubAt = (s.scrubAt + 1) % wordCount storeBlocks ∧
      ((∀ b ∈ s.store.flips, here b → decodeWord b.bits = .sound ∧ (b.wrong ≠ 0 ∨ b.bits ≠ 0)) → t.store = s.store) ∧
      ((∀ b ∈ s.store.flips, here b → errorCount b.bits = 1 ∧ b.wrong = 0) → t.store = { s.store with flips := others }) ∧
      ((∀ b ∈ s.store.flips, here b → decodeWord b.bits = .corrected) →
        t.store.image = s.store.image ∧ t.store.misread = s.store.misread ∧ ∀ b ∈ t.store.flips, here b → b.bits = 0) ∧
      ((∀ b ∈ s.store.flips, here b → errorCount b.bits = 2) → (∃ b ∈ s.store.flips, here b) →
        t.store = { image := s.store.image.withWords s.image w.1 (fun i => i == w.2.2), flips := others } ∧
        (∀ k ∈ storeKeys, k ≠ w.1 → sameItem t.store.image s.store.image k = true) ∧
        (s.storeCurrent → sameItem t.store.image s.image w.1 = true))) ∧
  (∀ (s : State) (tears : List StepTear),
    (∃ t : State, exec (.supplyCollapse tears) s = .next t ∧ t.phase = .flushed ∧ t.flush = none ∧
      t.inputs = { s.inputs with supplyLost := true }) ∧
    (s.phase = .flushed → s.flush = none →
      exec (.supplyCollapse tears) s = .next { s with inputs := { s.inputs with supplyLost := true } }) ∧
    (s.phase = .running → (∀ p : Port, (s.engines.get p).slot.isPending = false) →
      ∃ t : State, exec (.supplyCollapse tears) s = .next t ∧
        t = { s with
          phase := .flushed, inputs := { s.inputs with supplyLost := true }, engines := s.engines.dropTransfers
          lines := Lines.down, store := t.store, unsaved := [], flush := none })) ∧
  ∀ (s : State) (w : FlushWork) (ws : List StepWrites) (n : Nat) (torn : Option ItemTear), s.phase = .flushed →
    s.flush = some w → w.steps = [ws] →
    (∀ x ∈ ws, x.image.classes.length = w.store.image.classes.length ∧
      x.image.jobs.length = w.store.image.jobs.length) →
    let puts := ws.flatMap fun x => x.keys.map fun k => (x.image, k)
    let reached := fun k : StoreKey =>
      (((puts.take n).filter fun p => p.2 == k).getLast?.map Prod.fst).getD w.store.image;
    n < puts.length →
    ∃ t : State, exec (.supplyCollapse [{ written := n, torn := torn }]) s = .next t ∧
      t = { s with inputs := { s.inputs with supplyLost := true }, flush := none, store := t.store } ∧
      (∀ k ∈ storeKeys, (torn = none ∨ ∀ p ∈ puts[n]?, p.2 = k → sameItem p.1 (reached k) k = true) →
        sameItem t.store.image (reached k) k = true) ∧
      (∀ (i : Nat) (img : StoreImage) (a b : JobSlot), puts[n]? = some (img, .job i) →
        (reached (.job i)).jobs[i]? = some a → img.jobs[i]? = some b → a.state = b.state → a.number = b.number →
        a.defaultClass = b.defaultClass →
        ∃ c : JobSlot, t.store.image.jobs[i]? = some c ∧ c.state = a.state ∧ c.number = a.number) ∧
      ∀ (img : StoreImage) (joined : List Record) (e : Nat), puts[n]? = some (img, .records) →
        img.records.items = (reached .records).records.items ++ joined →
        (torn = some { edits := e, words := (List.range 115).map fun i => { word := i, fate := .kept } } →
          t.store.image.records.items = (reached .records).records.items ++ joined.take e) ∧
        (torn = some { edits := e, words := [] } →
          t.store.image.records.items = (reached .records).records.items ++ joined.take (e + 1))
end

