-- ==== Sys2Proof/Laws/Jobs.lean ====
section
/-! SUPPORT. The shares of a dross zinc over a period list: how many they are, and the free ones (R155, log 34). -/

namespace Sys2Proof.Machine

@[simp] theorem length_freeShares (rule : Nat → Nat) (n zc : Nat) : (freeShares rule n zc).length = n := by
  induction n, zc using freeShares.induct rule with
  | case1 => rfl
  | case2 => rfl
  | case3 zc n ih => simp [freeShares, ih]

/-- Free shares sum exactly to the dross zinc, whatever the rule. -/
theorem sum_freeShares (rule : Nat → Nat) {n : Nat} (h : n ≠ 0) (zc : Nat) : (freeShares rule n zc).sum = zc := by
  induction n, zc using freeShares.induct rule with
  | case1 => exact absurd rfl h
  | case2 => simp [freeShares]
  | case3 zc n ih => simp only [freeShares, List.sum_cons, ih (by omega)]; omega

/-- Every entry of the list takes a share. -/
@[simp] theorem length_sharesOf (zc : Nat) (period : List PeriodEntry) : (sharesOf zc period).length = period.length := by
  unfold sharesOf
  split <;> simp [floorShares]

/-- With black masses that do not sum to 0 the shares are those of R155. -/
theorem sharesOf_of_sum {period : List PeriodEntry} (h : (period.map PeriodEntry.black).sum ≠ 0) (zc : Nat) :
    sharesOf zc period = (floorShares zc period).zipIdx.map fun p =>
      if p.2 < zc - (floorShares zc period).sum then p.1 + 1 else p.1 := if_neg h

end Sys2Proof.Machine
end

