-- ==== Sys2Proof/Laws/State.lean ====
section
/-! SUPPORT. What each named update of State leaves alone: one lemma for each field and update. -/

namespace Sys2Proof.Machine

/-! ### setCrane -/

@[simp] theorem State.setCrane_phase (s : State) (c : Crane) (x : CraneContext) : (s.setCrane c x).phase = s.phase := rfl
@[simp] theorem State.setCrane_inputs (s : State) (c : Crane) (x : CraneContext) : (s.setCrane c x).inputs = s.inputs := rfl
@[simp] theorem State.setCrane_mode (s : State) (c : Crane) (x : CraneContext) : (s.setCrane c x).mode = s.mode := rfl
@[simp] theorem State.setCrane_lanes (s : State) (c : Crane) (x : CraneContext) : (s.setCrane c x).lanes = s.lanes := rfl
@[simp] theorem State.setCrane_setup (s : State) (c : Crane) (x : CraneContext) : (s.setCrane c x).setup = s.setup := rfl
@[simp] theorem State.setCrane_settings (s : State) (c : Crane) (x : CraneContext) : (s.setCrane c x).settings = s.settings := rfl
@[simp] theorem State.setCrane_feed (s : State) (c : Crane) (x : CraneContext) : (s.setCrane c x).feed = s.feed := rfl
@[simp] theorem State.setCrane_counter (s : State) (c : Crane) (x : CraneContext) : (s.setCrane c x).counter = s.counter := rfl
@[simp] theorem State.setCrane_live (s : State) (c : Crane) (x : CraneContext) : (s.setCrane c x).live = s.live := rfl
@[simp] theorem State.setCrane_foul (s : State) (c : Crane) (x : CraneContext) : (s.setCrane c x).foul = s.foul := rfl
@[simp] theorem State.setCrane_classes (s : State) (c : Crane) (x : CraneContext) : (s.setCrane c x).classes = s.classes := rfl
@[simp] theorem State.setCrane_jobs (s : State) (c : Crane) (x : CraneContext) : (s.setCrane c x).jobs = s.jobs := rfl
@[simp] theorem State.setCrane_period (s : State) (c : Crane) (x : CraneContext) : (s.setCrane c x).period = s.period := rfl
@[simp] theorem State.setCrane_hooks (s : State) (c : Crane) (x : CraneContext) : (s.setCrane c x).hooks = s.hooks := rfl
@[simp] theorem State.setCrane_watches (s : State) (c : Crane) (x : CraneContext) : (s.setCrane c x).watches = s.watches := rfl
@[simp] theorem State.setCrane_timers (s : State) (c : Crane) (x : CraneContext) : (s.setCrane c x).timers = s.timers := rfl
@[simp] theorem State.setCrane_bath (s : State) (c : Crane) (x : CraneContext) : (s.setCrane c x).bath = s.bath := rfl
@[simp] theorem State.setCrane_book (s : State) (c : Crane) (x : CraneContext) : (s.setCrane c x).book = s.book := rfl
@[simp] theorem State.setCrane_recon (s : State) (c : Crane) (x : CraneContext) : (s.setCrane c x).recon = s.recon := rfl
@[simp] theorem State.setCrane_records (s : State) (c : Crane) (x : CraneContext) : (s.setCrane c x).records = s.records := rfl
@[simp] theorem State.setCrane_notices (s : State) (c : Crane) (x : CraneContext) : (s.setCrane c x).notices = s.notices := rfl
@[simp] theorem State.setCrane_engines (s : State) (c : Crane) (x : CraneContext) : (s.setCrane c x).engines = s.engines := rfl
@[simp] theorem State.setCrane_damage (s : State) (c : Crane) (x : CraneContext) : (s.setCrane c x).damage = s.damage := rfl
@[simp] theorem State.setCrane_lines (s : State) (c : Crane) (x : CraneContext) : (s.setCrane c x).lines = s.lines := rfl
@[simp] theorem State.setCrane_store (s : State) (c : Crane) (x : CraneContext) : (s.setCrane c x).store = s.store := rfl
@[simp] theorem State.setCrane_unsaved (s : State) (c : Crane) (x : CraneContext) : (s.setCrane c x).unsaved = s.unsaved := rfl
@[simp] theorem State.setCrane_scrubAt (s : State) (c : Crane) (x : CraneContext) : (s.setCrane c x).scrubAt = s.scrubAt := rfl
@[simp] theorem State.setCrane_flush (s : State) (c : Crane) (x : CraneContext) : (s.setCrane c x).flush = s.flush := rfl
@[simp] theorem State.setCrane_pending (s : State) (c : Crane) (x : CraneContext) : (s.setCrane c x).pending = s.pending := rfl

/-! ### idleCranes -/

@[simp] theorem State.idleCranes_phase (s : State) (c : Crane) (b : Bool) (m : Option Nat) : (s.idleCranes c b m).phase = s.phase := by unfold State.idleCranes; split <;> rfl
@[simp] theorem State.idleCranes_inputs (s : State) (c : Crane) (b : Bool) (m : Option Nat) : (s.idleCranes c b m).inputs = s.inputs := by unfold State.idleCranes; split <;> rfl
@[simp] theorem State.idleCranes_mode (s : State) (c : Crane) (b : Bool) (m : Option Nat) : (s.idleCranes c b m).mode = s.mode := by unfold State.idleCranes; split <;> rfl
@[simp] theorem State.idleCranes_lanes (s : State) (c : Crane) (b : Bool) (m : Option Nat) : (s.idleCranes c b m).lanes = s.lanes := by unfold State.idleCranes; split <;> rfl
@[simp] theorem State.idleCranes_setup (s : State) (c : Crane) (b : Bool) (m : Option Nat) : (s.idleCranes c b m).setup = s.setup := by unfold State.idleCranes; split <;> rfl
@[simp] theorem State.idleCranes_settings (s : State) (c : Crane) (b : Bool) (m : Option Nat) : (s.idleCranes c b m).settings = s.settings := by unfold State.idleCranes; split <;> rfl
@[simp] theorem State.idleCranes_feed (s : State) (c : Crane) (b : Bool) (m : Option Nat) : (s.idleCranes c b m).feed = s.feed := by unfold State.idleCranes; split <;> rfl
@[simp] theorem State.idleCranes_counter (s : State) (c : Crane) (b : Bool) (m : Option Nat) : (s.idleCranes c b m).counter = s.counter := by unfold State.idleCranes; split <;> rfl
@[simp] theorem State.idleCranes_live (s : State) (c : Crane) (b : Bool) (m : Option Nat) : (s.idleCranes c b m).live = s.live := by unfold State.idleCranes; split <;> rfl
@[simp] theorem State.idleCranes_foul (s : State) (c : Crane) (b : Bool) (m : Option Nat) : (s.idleCranes c b m).foul = s.foul := by unfold State.idleCranes; split <;> rfl
@[simp] theorem State.idleCranes_classes (s : State) (c : Crane) (b : Bool) (m : Option Nat) : (s.idleCranes c b m).classes = s.classes := by unfold State.idleCranes; split <;> rfl
@[simp] theorem State.idleCranes_jobs (s : State) (c : Crane) (b : Bool) (m : Option Nat) : (s.idleCranes c b m).jobs = s.jobs := by unfold State.idleCranes; split <;> rfl
@[simp] theorem State.idleCranes_period (s : State) (c : Crane) (b : Bool) (m : Option Nat) : (s.idleCranes c b m).period = s.period := by unfold State.idleCranes; split <;> rfl
@[simp] theorem State.idleCranes_hooks (s : State) (c : Crane) (b : Bool) (m : Option Nat) : (s.idleCranes c b m).hooks = s.hooks := by unfold State.idleCranes; split <;> rfl
@[simp] theorem State.idleCranes_watches (s : State) (c : Crane) (b : Bool) (m : Option Nat) : (s.idleCranes c b m).watches = s.watches := by unfold State.idleCranes; split <;> rfl
@[simp] theorem State.idleCranes_timers (s : State) (c : Crane) (b : Bool) (m : Option Nat) : (s.idleCranes c b m).timers = s.timers := by unfold State.idleCranes; split <;> rfl
@[simp] theorem State.idleCranes_bath (s : State) (c : Crane) (b : Bool) (m : Option Nat) : (s.idleCranes c b m).bath = s.bath := by unfold State.idleCranes; split <;> rfl
@[simp] theorem State.idleCranes_book (s : State) (c : Crane) (b : Bool) (m : Option Nat) : (s.idleCranes c b m).book = s.book := by unfold State.idleCranes; split <;> rfl
@[simp] theorem State.idleCranes_recon (s : State) (c : Crane) (b : Bool) (m : Option Nat) : (s.idleCranes c b m).recon = s.recon := by unfold State.idleCranes; split <;> rfl
@[simp] theorem State.idleCranes_records (s : State) (c : Crane) (b : Bool) (m : Option Nat) : (s.idleCranes c b m).records = s.records := by unfold State.idleCranes; split <;> rfl
@[simp] theorem State.idleCranes_notices (s : State) (c : Crane) (b : Bool) (m : Option Nat) : (s.idleCranes c b m).notices = s.notices := by unfold State.idleCranes; split <;> rfl
@[simp] theorem State.idleCranes_engines (s : State) (c : Crane) (b : Bool) (m : Option Nat) : (s.idleCranes c b m).engines = s.engines := by unfold State.idleCranes; split <;> rfl
@[simp] theorem State.idleCranes_damage (s : State) (c : Crane) (b : Bool) (m : Option Nat) : (s.idleCranes c b m).damage = s.damage := by unfold State.idleCranes; split <;> rfl
@[simp] theorem State.idleCranes_lines (s : State) (c : Crane) (b : Bool) (m : Option Nat) : (s.idleCranes c b m).lines = s.lines := by unfold State.idleCranes; split <;> rfl
@[simp] theorem State.idleCranes_store (s : State) (c : Crane) (b : Bool) (m : Option Nat) : (s.idleCranes c b m).store = s.store := by unfold State.idleCranes; split <;> rfl
@[simp] theorem State.idleCranes_unsaved (s : State) (c : Crane) (b : Bool) (m : Option Nat) : (s.idleCranes c b m).unsaved = s.unsaved := by unfold State.idleCranes; split <;> rfl
@[simp] theorem State.idleCranes_scrubAt (s : State) (c : Crane) (b : Bool) (m : Option Nat) : (s.idleCranes c b m).scrubAt = s.scrubAt := by unfold State.idleCranes; split <;> rfl
@[simp] theorem State.idleCranes_flush (s : State) (c : Crane) (b : Bool) (m : Option Nat) : (s.idleCranes c b m).flush = s.flush := by unfold State.idleCranes; split <;> rfl
@[simp] theorem State.idleCranes_pending (s : State) (c : Crane) (b : Bool) (m : Option Nat) : (s.idleCranes c b m).pending = s.pending := by unfold State.idleCranes; split <;> rfl

/-! ### queueRecord -/

@[simp] theorem State.queueRecord_phase (s : State) (b : RecordBody) : (s.queueRecord b).phase = s.phase := rfl
@[simp] theorem State.queueRecord_inputs (s : State) (b : RecordBody) : (s.queueRecord b).inputs = s.inputs := rfl
@[simp] theorem State.queueRecord_mode (s : State) (b : RecordBody) : (s.queueRecord b).mode = s.mode := rfl
@[simp] theorem State.queueRecord_lanes (s : State) (b : RecordBody) : (s.queueRecord b).lanes = s.lanes := rfl
@[simp] theorem State.queueRecord_setup (s : State) (b : RecordBody) : (s.queueRecord b).setup = s.setup := rfl
@[simp] theorem State.queueRecord_settings (s : State) (b : RecordBody) : (s.queueRecord b).settings = s.settings := rfl
@[simp] theorem State.queueRecord_cranes (s : State) (b : RecordBody) : (s.queueRecord b).cranes = s.cranes := rfl
@[simp] theorem State.queueRecord_feed (s : State) (b : RecordBody) : (s.queueRecord b).feed = s.feed := rfl
@[simp] theorem State.queueRecord_counter (s : State) (b : RecordBody) : (s.queueRecord b).counter = s.counter := rfl
@[simp] theorem State.queueRecord_live (s : State) (b : RecordBody) : (s.queueRecord b).live = s.live := rfl
@[simp] theorem State.queueRecord_foul (s : State) (b : RecordBody) : (s.queueRecord b).foul = s.foul := rfl
@[simp] theorem State.queueRecord_classes (s : State) (b : RecordBody) : (s.queueRecord b).classes = s.classes := rfl
@[simp] theorem State.queueRecord_jobs (s : State) (b : RecordBody) : (s.queueRecord b).jobs = s.jobs := rfl
@[simp] theorem State.queueRecord_period (s : State) (b : RecordBody) : (s.queueRecord b).period = s.period := rfl
@[simp] theorem State.queueRecord_hooks (s : State) (b : RecordBody) : (s.queueRecord b).hooks = s.hooks := rfl
@[simp] theorem State.queueRecord_watches (s : State) (b : RecordBody) : (s.queueRecord b).watches = s.watches := rfl
@[simp] theorem State.queueRecord_timers (s : State) (b : RecordBody) : (s.queueRecord b).timers = s.timers := rfl
@[simp] theorem State.queueRecord_bath (s : State) (b : RecordBody) : (s.queueRecord b).bath = s.bath := rfl
@[simp] theorem State.queueRecord_book (s : State) (b : RecordBody) : (s.queueRecord b).book = s.book := rfl
@[simp] theorem State.queueRecord_recon (s : State) (b : RecordBody) : (s.queueRecord b).recon = s.recon := rfl
@[simp] theorem State.queueRecord_notices (s : State) (b : RecordBody) : (s.queueRecord b).notices = s.notices := rfl
@[simp] theorem State.queueRecord_engines (s : State) (b : RecordBody) : (s.queueRecord b).engines = s.engines := rfl
@[simp] theorem State.queueRecord_damage (s : State) (b : RecordBody) : (s.queueRecord b).damage = s.damage := rfl
@[simp] theorem State.queueRecord_lines (s : State) (b : RecordBody) : (s.queueRecord b).lines = s.lines := rfl
@[simp] theorem State.queueRecord_store (s : State) (b : RecordBody) : (s.queueRecord b).store = s.store := rfl
@[simp] theorem State.queueRecord_unsaved (s : State) (b : RecordBody) : (s.queueRecord b).unsaved = s.unsaved := rfl
@[simp] theorem State.queueRecord_scrubAt (s : State) (b : RecordBody) : (s.queueRecord b).scrubAt = s.scrubAt := rfl
@[simp] theorem State.queueRecord_flush (s : State) (b : RecordBody) : (s.queueRecord b).flush = s.flush := rfl
@[simp] theorem State.queueRecord_pending (s : State) (b : RecordBody) : (s.queueRecord b).pending = s.pending := rfl

/-! ### notify -/

@[simp] theorem State.notify_phase (s : State) (p : Port) (n : Notice) : (s.notify p n).phase = s.phase := rfl
@[simp] theorem State.notify_inputs (s : State) (p : Port) (n : Notice) : (s.notify p n).inputs = s.inputs := rfl
@[simp] theorem State.notify_mode (s : State) (p : Port) (n : Notice) : (s.notify p n).mode = s.mode := rfl
@[simp] theorem State.notify_lanes (s : State) (p : Port) (n : Notice) : (s.notify p n).lanes = s.lanes := rfl
@[simp] theorem State.notify_setup (s : State) (p : Port) (n : Notice) : (s.notify p n).setup = s.setup := rfl
@[simp] theorem State.notify_settings (s : State) (p : Port) (n : Notice) : (s.notify p n).settings = s.settings := rfl
@[simp] theorem State.notify_cranes (s : State) (p : Port) (n : Notice) : (s.notify p n).cranes = s.cranes := rfl
@[simp] theorem State.notify_feed (s : State) (p : Port) (n : Notice) : (s.notify p n).feed = s.feed := rfl
@[simp] theorem State.notify_counter (s : State) (p : Port) (n : Notice) : (s.notify p n).counter = s.counter := rfl
@[simp] theorem State.notify_live (s : State) (p : Port) (n : Notice) : (s.notify p n).live = s.live := rfl
@[simp] theorem State.notify_foul (s : State) (p : Port) (n : Notice) : (s.notify p n).foul = s.foul := rfl
@[simp] theorem State.notify_classes (s : State) (p : Port) (n : Notice) : (s.notify p n).classes = s.classes := rfl
@[simp] theorem State.notify_jobs (s : State) (p : Port) (n : Notice) : (s.notify p n).jobs = s.jobs := rfl
@[simp] theorem State.notify_period (s : State) (p : Port) (n : Notice) : (s.notify p n).period = s.period := rfl
@[simp] theorem State.notify_hooks (s : State) (p : Port) (n : Notice) : (s.notify p n).hooks = s.hooks := rfl
@[simp] theorem State.notify_watches (s : State) (p : Port) (n : Notice) : (s.notify p n).watches = s.watches := rfl
@[simp] theorem State.notify_timers (s : State) (p : Port) (n : Notice) : (s.notify p n).timers = s.timers := rfl
@[simp] theorem State.notify_bath (s : State) (p : Port) (n : Notice) : (s.notify p n).bath = s.bath := rfl
@[simp] theorem State.notify_book (s : State) (p : Port) (n : Notice) : (s.notify p n).book = s.book := rfl
@[simp] theorem State.notify_recon (s : State) (p : Port) (n : Notice) : (s.notify p n).recon = s.recon := rfl
@[simp] theorem State.notify_records (s : State) (p : Port) (n : Notice) : (s.notify p n).records = s.records := rfl
@[simp] theorem State.notify_engines (s : State) (p : Port) (n : Notice) : (s.notify p n).engines = s.engines := rfl
@[simp] theorem State.notify_damage (s : State) (p : Port) (n : Notice) : (s.notify p n).damage = s.damage := rfl
@[simp] theorem State.notify_lines (s : State) (p : Port) (n : Notice) : (s.notify p n).lines = s.lines := rfl
@[simp] theorem State.notify_store (s : State) (p : Port) (n : Notice) : (s.notify p n).store = s.store := rfl
@[simp] theorem State.notify_unsaved (s : State) (p : Port) (n : Notice) : (s.notify p n).unsaved = s.unsaved := rfl
@[simp] theorem State.notify_scrubAt (s : State) (p : Port) (n : Notice) : (s.notify p n).scrubAt = s.scrubAt := rfl
@[simp] theorem State.notify_flush (s : State) (p : Port) (n : Notice) : (s.notify p n).flush = s.flush := rfl
@[simp] theorem State.notify_pending (s : State) (p : Port) (n : Notice) : (s.notify p n).pending = s.pending := rfl

/-! ### notifyAll -/

@[simp] theorem State.notifyAll_phase (s : State) (n : Notice) : (s.notifyAll n).phase = s.phase := by simp [State.notifyAll]
@[simp] theorem State.notifyAll_inputs (s : State) (n : Notice) : (s.notifyAll n).inputs = s.inputs := by simp [State.notifyAll]
@[simp] theorem State.notifyAll_mode (s : State) (n : Notice) : (s.notifyAll n).mode = s.mode := by simp [State.notifyAll]
@[simp] theorem State.notifyAll_lanes (s : State) (n : Notice) : (s.notifyAll n).lanes = s.lanes := by simp [State.notifyAll]
@[simp] theorem State.notifyAll_setup (s : State) (n : Notice) : (s.notifyAll n).setup = s.setup := by simp [State.notifyAll]
@[simp] theorem State.notifyAll_settings (s : State) (n : Notice) : (s.notifyAll n).settings = s.settings := by simp [State.notifyAll]
@[simp] theorem State.notifyAll_cranes (s : State) (n : Notice) : (s.notifyAll n).cranes = s.cranes := by simp [State.notifyAll]
@[simp] theorem State.notifyAll_feed (s : State) (n : Notice) : (s.notifyAll n).feed = s.feed := by simp [State.notifyAll]
@[simp] theorem State.notifyAll_counter (s : State) (n : Notice) : (s.notifyAll n).counter = s.counter := by simp [State.notifyAll]
@[simp] theorem State.notifyAll_live (s : State) (n : Notice) : (s.notifyAll n).live = s.live := by simp [State.notifyAll]
@[simp] theorem State.notifyAll_foul (s : State) (n : Notice) : (s.notifyAll n).foul = s.foul := by simp [State.notifyAll]
@[simp] theorem State.notifyAll_classes (s : State) (n : Notice) : (s.notifyAll n).classes = s.classes := by simp [State.notifyAll]
@[simp] theorem State.notifyAll_jobs (s : State) (n : Notice) : (s.notifyAll n).jobs = s.jobs := by simp [State.notifyAll]
@[simp] theorem State.notifyAll_period (s : State) (n : Notice) : (s.notifyAll n).period = s.period := by simp [State.notifyAll]
@[simp] theorem State.notifyAll_hooks (s : State) (n : Notice) : (s.notifyAll n).hooks = s.hooks := by simp [State.notifyAll]
@[simp] theorem State.notifyAll_watches (s : State) (n : Notice) : (s.notifyAll n).watches = s.watches := by simp [State.notifyAll]
@[simp] theorem State.notifyAll_timers (s : State) (n : Notice) : (s.notifyAll n).timers = s.timers := by simp [State.notifyAll]
@[simp] theorem State.notifyAll_bath (s : State) (n : Notice) : (s.notifyAll n).bath = s.bath := by simp [State.notifyAll]
@[simp] theorem State.notifyAll_book (s : State) (n : Notice) : (s.notifyAll n).book = s.book := by simp [State.notifyAll]
@[simp] theorem State.notifyAll_recon (s : State) (n : Notice) : (s.notifyAll n).recon = s.recon := by simp [State.notifyAll]
@[simp] theorem State.notifyAll_records (s : State) (n : Notice) : (s.notifyAll n).records = s.records := by simp [State.notifyAll]
@[simp] theorem State.notifyAll_engines (s : State) (n : Notice) : (s.notifyAll n).engines = s.engines := by simp [State.notifyAll]
@[simp] theorem State.notifyAll_damage (s : State) (n : Notice) : (s.notifyAll n).damage = s.damage := by simp [State.notifyAll]
@[simp] theorem State.notifyAll_lines (s : State) (n : Notice) : (s.notifyAll n).lines = s.lines := by simp [State.notifyAll]
@[simp] theorem State.notifyAll_store (s : State) (n : Notice) : (s.notifyAll n).store = s.store := by simp [State.notifyAll]
@[simp] theorem State.notifyAll_unsaved (s : State) (n : Notice) : (s.notifyAll n).unsaved = s.unsaved := by simp [State.notifyAll]
@[simp] theorem State.notifyAll_scrubAt (s : State) (n : Notice) : (s.notifyAll n).scrubAt = s.scrubAt := by simp [State.notifyAll]
@[simp] theorem State.notifyAll_flush (s : State) (n : Notice) : (s.notifyAll n).flush = s.flush := by simp [State.notifyAll]
@[simp] theorem State.notifyAll_pending (s : State) (n : Notice) : (s.notifyAll n).pending = s.pending := by simp [State.notifyAll]

/-! ### notifyEntry -/

@[simp] theorem State.notifyEntry_phase (s : State) (c : Crane) (b : Bool) (n : Notice) : (s.notifyEntry c b n).phase = s.phase := by unfold State.notifyEntry; split <;> simp
@[simp] theorem State.notifyEntry_inputs (s : State) (c : Crane) (b : Bool) (n : Notice) : (s.notifyEntry c b n).inputs = s.inputs := by unfold State.notifyEntry; split <;> simp
@[simp] theorem State.notifyEntry_mode (s : State) (c : Crane) (b : Bool) (n : Notice) : (s.notifyEntry c b n).mode = s.mode := by unfold State.notifyEntry; split <;> simp
@[simp] theorem State.notifyEntry_lanes (s : State) (c : Crane) (b : Bool) (n : Notice) : (s.notifyEntry c b n).lanes = s.lanes := by unfold State.notifyEntry; split <;> simp
@[simp] theorem State.notifyEntry_setup (s : State) (c : Crane) (b : Bool) (n : Notice) : (s.notifyEntry c b n).setup = s.setup := by unfold State.notifyEntry; split <;> simp
@[simp] theorem State.notifyEntry_settings (s : State) (c : Crane) (b : Bool) (n : Notice) : (s.notifyEntry c b n).settings = s.settings := by unfold State.notifyEntry; split <;> simp
@[simp] theorem State.notifyEntry_cranes (s : State) (c : Crane) (b : Bool) (n : Notice) : (s.notifyEntry c b n).cranes = s.cranes := by unfold State.notifyEntry; split <;> simp
@[simp] theorem State.notifyEntry_feed (s : State) (c : Crane) (b : Bool) (n : Notice) : (s.notifyEntry c b n).feed = s.feed := by unfold State.notifyEntry; split <;> simp
@[simp] theorem State.notifyEntry_counter (s : State) (c : Crane) (b : Bool) (n : Notice) : (s.notifyEntry c b n).counter = s.counter := by unfold State.notifyEntry; split <;> simp
@[simp] theorem State.notifyEntry_live (s : State) (c : Crane) (b : Bool) (n : Notice) : (s.notifyEntry c b n).live = s.live := by unfold State.notifyEntry; split <;> simp
@[simp] theorem State.notifyEntry_foul (s : State) (c : Crane) (b : Bool) (n : Notice) : (s.notifyEntry c b n).foul = s.foul := by unfold State.notifyEntry; split <;> simp
@[simp] theorem State.notifyEntry_classes (s : State) (c : Crane) (b : Bool) (n : Notice) : (s.notifyEntry c b n).classes = s.classes := by unfold State.notifyEntry; split <;> simp
@[simp] theorem State.notifyEntry_jobs (s : State) (c : Crane) (b : Bool) (n : Notice) : (s.notifyEntry c b n).jobs = s.jobs := by unfold State.notifyEntry; split <;> simp
@[simp] theorem State.notifyEntry_period (s : State) (c : Crane) (b : Bool) (n : Notice) : (s.notifyEntry c b n).period = s.period := by unfold State.notifyEntry; split <;> simp
@[simp] theorem State.notifyEntry_hooks (s : State) (c : Crane) (b : Bool) (n : Notice) : (s.notifyEntry c b n).hooks = s.hooks := by unfold State.notifyEntry; split <;> simp
@[simp] theorem State.notifyEntry_watches (s : State) (c : Crane) (b : Bool) (n : Notice) : (s.notifyEntry c b n).watches = s.watches := by unfold State.notifyEntry; split <;> simp
@[simp] theorem State.notifyEntry_timers (s : State) (c : Crane) (b : Bool) (n : Notice) : (s.notifyEntry c b n).timers = s.timers := by unfold State.notifyEntry; split <;> simp
@[simp] theorem State.notifyEntry_bath (s : State) (c : Crane) (b : Bool) (n : Notice) : (s.notifyEntry c b n).bath = s.bath := by unfold State.notifyEntry; split <;> simp
@[simp] theorem State.notifyEntry_book (s : State) (c : Crane) (b : Bool) (n : Notice) : (s.notifyEntry c b n).book = s.book := by unfold State.notifyEntry; split <;> simp
@[simp] theorem State.notifyEntry_recon (s : State) (c : Crane) (b : Bool) (n : Notice) : (s.notifyEntry c b n).recon = s.recon := by unfold State.notifyEntry; split <;> simp
@[simp] theorem State.notifyEntry_records (s : State) (c : Crane) (b : Bool) (n : Notice) : (s.notifyEntry c b n).records = s.records := by unfold State.notifyEntry; split <;> simp
@[simp] theorem State.notifyEntry_engines (s : State) (c : Crane) (b : Bool) (n : Notice) : (s.notifyEntry c b n).engines = s.engines := by unfold State.notifyEntry; split <;> simp
@[simp] theorem State.notifyEntry_damage (s : State) (c : Crane) (b : Bool) (n : Notice) : (s.notifyEntry c b n).damage = s.damage := by unfold State.notifyEntry; split <;> simp
@[simp] theorem State.notifyEntry_lines (s : State) (c : Crane) (b : Bool) (n : Notice) : (s.notifyEntry c b n).lines = s.lines := by unfold State.notifyEntry; split <;> simp
@[simp] theorem State.notifyEntry_store (s : State) (c : Crane) (b : Bool) (n : Notice) : (s.notifyEntry c b n).store = s.store := by unfold State.notifyEntry; split <;> simp
@[simp] theorem State.notifyEntry_unsaved (s : State) (c : Crane) (b : Bool) (n : Notice) : (s.notifyEntry c b n).unsaved = s.unsaved := by unfold State.notifyEntry; split <;> simp
@[simp] theorem State.notifyEntry_scrubAt (s : State) (c : Crane) (b : Bool) (n : Notice) : (s.notifyEntry c b n).scrubAt = s.scrubAt := by unfold State.notifyEntry; split <;> simp
@[simp] theorem State.notifyEntry_flush (s : State) (c : Crane) (b : Bool) (n : Notice) : (s.notifyEntry c b n).flush = s.flush := by unfold State.notifyEntry; split <;> simp
@[simp] theorem State.notifyEntry_pending (s : State) (c : Crane) (b : Bool) (n : Notice) : (s.notifyEntry c b n).pending = s.pending := by unfold State.notifyEntry; split <;> simp

/-! ### dropLive -/

@[simp] theorem State.dropLive_phase (s : State) (n : Nat) : (s.dropLive n).phase = s.phase := rfl
@[simp] theorem State.dropLive_inputs (s : State) (n : Nat) : (s.dropLive n).inputs = s.inputs := rfl
@[simp] theorem State.dropLive_mode (s : State) (n : Nat) : (s.dropLive n).mode = s.mode := rfl
@[simp] theorem State.dropLive_lanes (s : State) (n : Nat) : (s.dropLive n).lanes = s.lanes := rfl
@[simp] theorem State.dropLive_setup (s : State) (n : Nat) : (s.dropLive n).setup = s.setup := rfl
@[simp] theorem State.dropLive_settings (s : State) (n : Nat) : (s.dropLive n).settings = s.settings := rfl
@[simp] theorem State.dropLive_cranes (s : State) (n : Nat) : (s.dropLive n).cranes = s.cranes := rfl
@[simp] theorem State.dropLive_feed (s : State) (n : Nat) : (s.dropLive n).feed = s.feed := rfl
@[simp] theorem State.dropLive_counter (s : State) (n : Nat) : (s.dropLive n).counter = s.counter := rfl
@[simp] theorem State.dropLive_foul (s : State) (n : Nat) : (s.dropLive n).foul = s.foul := rfl
@[simp] theorem State.dropLive_classes (s : State) (n : Nat) : (s.dropLive n).classes = s.classes := rfl
@[simp] theorem State.dropLive_jobs (s : State) (n : Nat) : (s.dropLive n).jobs = s.jobs := rfl
@[simp] theorem State.dropLive_period (s : State) (n : Nat) : (s.dropLive n).period = s.period := rfl
@[simp] theorem State.dropLive_hooks (s : State) (n : Nat) : (s.dropLive n).hooks = s.hooks := rfl
@[simp] theorem State.dropLive_watches (s : State) (n : Nat) : (s.dropLive n).watches = s.watches := rfl
@[simp] theorem State.dropLive_timers (s : State) (n : Nat) : (s.dropLive n).timers = s.timers := rfl
@[simp] theorem State.dropLive_bath (s : State) (n : Nat) : (s.dropLive n).bath = s.bath := rfl
@[simp] theorem State.dropLive_book (s : State) (n : Nat) : (s.dropLive n).book = s.book := rfl
@[simp] theorem State.dropLive_recon (s : State) (n : Nat) : (s.dropLive n).recon = s.recon := rfl
@[simp] theorem State.dropLive_records (s : State) (n : Nat) : (s.dropLive n).records = s.records := rfl
@[simp] theorem State.dropLive_notices (s : State) (n : Nat) : (s.dropLive n).notices = s.notices := rfl
@[simp] theorem State.dropLive_engines (s : State) (n : Nat) : (s.dropLive n).engines = s.engines := rfl
@[simp] theorem State.dropLive_damage (s : State) (n : Nat) : (s.dropLive n).damage = s.damage := rfl
@[simp] theorem State.dropLive_lines (s : State) (n : Nat) : (s.dropLive n).lines = s.lines := rfl
@[simp] theorem State.dropLive_store (s : State) (n : Nat) : (s.dropLive n).store = s.store := rfl
@[simp] theorem State.dropLive_unsaved (s : State) (n : Nat) : (s.dropLive n).unsaved = s.unsaved := rfl
@[simp] theorem State.dropLive_scrubAt (s : State) (n : Nat) : (s.dropLive n).scrubAt = s.scrubAt := rfl
@[simp] theorem State.dropLive_flush (s : State) (n : Nat) : (s.dropLive n).flush = s.flush := rfl
@[simp] theorem State.dropLive_pending (s : State) (n : Nat) : (s.dropLive n).pending = s.pending := rfl

/-! ### pass -/

@[simp] theorem State.pass_phase (s : State) : (s.pass).phase = s.phase := rfl
@[simp] theorem State.pass_inputs (s : State) : (s.pass).inputs = s.inputs := rfl
@[simp] theorem State.pass_mode (s : State) : (s.pass).mode = s.mode := rfl
@[simp] theorem State.pass_lanes (s : State) : (s.pass).lanes = s.lanes := rfl
@[simp] theorem State.pass_setup (s : State) : (s.pass).setup = s.setup := rfl
@[simp] theorem State.pass_settings (s : State) : (s.pass).settings = s.settings := rfl
@[simp] theorem State.pass_counter (s : State) : (s.pass).counter = s.counter := rfl
@[simp] theorem State.pass_live (s : State) : (s.pass).live = s.live := rfl
@[simp] theorem State.pass_foul (s : State) : (s.pass).foul = s.foul := rfl
@[simp] theorem State.pass_classes (s : State) : (s.pass).classes = s.classes := rfl
@[simp] theorem State.pass_jobs (s : State) : (s.pass).jobs = s.jobs := rfl
@[simp] theorem State.pass_period (s : State) : (s.pass).period = s.period := rfl
@[simp] theorem State.pass_hooks (s : State) : (s.pass).hooks = s.hooks := rfl
@[simp] theorem State.pass_watches (s : State) : (s.pass).watches = s.watches := rfl
@[simp] theorem State.pass_timers (s : State) : (s.pass).timers = s.timers := rfl
@[simp] theorem State.pass_bath (s : State) : (s.pass).bath = s.bath := rfl
@[simp] theorem State.pass_book (s : State) : (s.pass).book = s.book := rfl
@[simp] theorem State.pass_records (s : State) : (s.pass).records = s.records := rfl
@[simp] theorem State.pass_notices (s : State) : (s.pass).notices = s.notices := rfl
@[simp] theorem State.pass_engines (s : State) : (s.pass).engines = s.engines := rfl
@[simp] theorem State.pass_damage (s : State) : (s.pass).damage = s.damage := rfl
@[simp] theorem State.pass_lines (s : State) : (s.pass).lines = s.lines := rfl
@[simp] theorem State.pass_store (s : State) : (s.pass).store = s.store := rfl
@[simp] theorem State.pass_unsaved (s : State) : (s.pass).unsaved = s.unsaved := rfl
@[simp] theorem State.pass_scrubAt (s : State) : (s.pass).scrubAt = s.scrubAt := rfl
@[simp] theorem State.pass_flush (s : State) : (s.pass).flush = s.flush := rfl
@[simp] theorem State.pass_pending (s : State) : (s.pass).pending = s.pending := rfl

/-! ### judgeLines -/

@[simp] theorem State.judgeLines_phase (s : State) : (s.judgeLines).phase = s.phase := rfl
@[simp] theorem State.judgeLines_inputs (s : State) : (s.judgeLines).inputs = s.inputs := rfl
@[simp] theorem State.judgeLines_mode (s : State) : (s.judgeLines).mode = s.mode := rfl
@[simp] theorem State.judgeLines_lanes (s : State) : (s.judgeLines).lanes = s.lanes := rfl
@[simp] theorem State.judgeLines_setup (s : State) : (s.judgeLines).setup = s.setup := rfl
@[simp] theorem State.judgeLines_settings (s : State) : (s.judgeLines).settings = s.settings := rfl
@[simp] theorem State.judgeLines_cranes (s : State) : (s.judgeLines).cranes = s.cranes := rfl
@[simp] theorem State.judgeLines_feed (s : State) : (s.judgeLines).feed = s.feed := rfl
@[simp] theorem State.judgeLines_counter (s : State) : (s.judgeLines).counter = s.counter := rfl
@[simp] theorem State.judgeLines_live (s : State) : (s.judgeLines).live = s.live := rfl
@[simp] theorem State.judgeLines_foul (s : State) : (s.judgeLines).foul = s.foul := rfl
@[simp] theorem State.judgeLines_classes (s : State) : (s.judgeLines).classes = s.classes := rfl
@[simp] theorem State.judgeLines_jobs (s : State) : (s.judgeLines).jobs = s.jobs := rfl
@[simp] theorem State.judgeLines_period (s : State) : (s.judgeLines).period = s.period := rfl
@[simp] theorem State.judgeLines_hooks (s : State) : (s.judgeLines).hooks = s.hooks := rfl
@[simp] theorem State.judgeLines_watches (s : State) : (s.judgeLines).watches = s.watches := rfl
@[simp] theorem State.judgeLines_timers (s : State) : (s.judgeLines).timers = s.timers := rfl
@[simp] theorem State.judgeLines_bath (s : State) : (s.judgeLines).bath = s.bath := rfl
@[simp] theorem State.judgeLines_book (s : State) : (s.judgeLines).book = s.book := rfl
@[simp] theorem State.judgeLines_recon (s : State) : (s.judgeLines).recon = s.recon := rfl
@[simp] theorem State.judgeLines_records (s : State) : (s.judgeLines).records = s.records := rfl
@[simp] theorem State.judgeLines_notices (s : State) : (s.judgeLines).notices = s.notices := rfl
@[simp] theorem State.judgeLines_engines (s : State) : (s.judgeLines).engines = s.engines := rfl
@[simp] theorem State.judgeLines_damage (s : State) : (s.judgeLines).damage = s.damage := rfl
@[simp] theorem State.judgeLines_store (s : State) : (s.judgeLines).store = s.store := rfl
@[simp] theorem State.judgeLines_unsaved (s : State) : (s.judgeLines).unsaved = s.unsaved := rfl
@[simp] theorem State.judgeLines_scrubAt (s : State) : (s.judgeLines).scrubAt = s.scrubAt := rfl
@[simp] theorem State.judgeLines_flush (s : State) : (s.judgeLines).flush = s.flush := rfl
@[simp] theorem State.judgeLines_pending (s : State) : (s.judgeLines).pending = s.pending := rfl

/-! ### judgeFeed -/

@[simp] theorem State.judgeFeed_phase (s : State) : (s.judgeFeed).phase = s.phase := by unfold State.judgeFeed; split <;> simp
@[simp] theorem State.judgeFeed_inputs (s : State) : (s.judgeFeed).inputs = s.inputs := by unfold State.judgeFeed; split <;> simp
@[simp] theorem State.judgeFeed_mode (s : State) : (s.judgeFeed).mode = s.mode := by unfold State.judgeFeed; split <;> simp
@[simp] theorem State.judgeFeed_lanes (s : State) : (s.judgeFeed).lanes = s.lanes := by unfold State.judgeFeed; split <;> simp
@[simp] theorem State.judgeFeed_setup (s : State) : (s.judgeFeed).setup = s.setup := by unfold State.judgeFeed; split <;> simp
@[simp] theorem State.judgeFeed_settings (s : State) : (s.judgeFeed).settings = s.settings := by unfold State.judgeFeed; split <;> simp
@[simp] theorem State.judgeFeed_cranes (s : State) : (s.judgeFeed).cranes = s.cranes := by unfold State.judgeFeed; split <;> simp
@[simp] theorem State.judgeFeed_feed (s : State) : (s.judgeFeed).feed = s.feed := by unfold State.judgeFeed; split <;> simp
@[simp] theorem State.judgeFeed_counter (s : State) : (s.judgeFeed).counter = s.counter := by unfold State.judgeFeed; split <;> simp
@[simp] theorem State.judgeFeed_live (s : State) : (s.judgeFeed).live = s.live := by unfold State.judgeFeed; split <;> simp
@[simp] theorem State.judgeFeed_foul (s : State) : (s.judgeFeed).foul = s.foul := by unfold State.judgeFeed; split <;> simp
@[simp] theorem State.judgeFeed_classes (s : State) : (s.judgeFeed).classes = s.classes := by unfold State.judgeFeed; split <;> simp
@[simp] theorem State.judgeFeed_jobs (s : State) : (s.judgeFeed).jobs = s.jobs := by unfold State.judgeFeed; split <;> simp
@[simp] theorem State.judgeFeed_period (s : State) : (s.judgeFeed).period = s.period := by unfold State.judgeFeed; split <;> simp
@[simp] theorem State.judgeFeed_hooks (s : State) : (s.judgeFeed).hooks = s.hooks := by unfold State.judgeFeed; split <;> simp
@[simp] theorem State.judgeFeed_watches (s : State) : (s.judgeFeed).watches = s.watches := by unfold State.judgeFeed; split <;> simp
@[simp] theorem State.judgeFeed_timers (s : State) : (s.judgeFeed).timers = s.timers := by unfold State.judgeFeed; split <;> simp
@[simp] theorem State.judgeFeed_bath (s : State) : (s.judgeFeed).bath = s.bath := by unfold State.judgeFeed; split <;> simp
@[simp] theorem State.judgeFeed_book (s : State) : (s.judgeFeed).book = s.book := by unfold State.judgeFeed; split <;> simp
@[simp] theorem State.judgeFeed_recon (s : State) : (s.judgeFeed).recon = s.recon := by unfold State.judgeFeed; split <;> simp
@[simp] theorem State.judgeFeed_records (s : State) : (s.judgeFeed).records = s.records := by unfold State.judgeFeed; split <;> simp
@[simp] theorem State.judgeFeed_engines (s : State) : (s.judgeFeed).engines = s.engines := by unfold State.judgeFeed; split <;> simp
@[simp] theorem State.judgeFeed_damage (s : State) : (s.judgeFeed).damage = s.damage := by unfold State.judgeFeed; split <;> simp
@[simp] theorem State.judgeFeed_store (s : State) : (s.judgeFeed).store = s.store := by unfold State.judgeFeed; split <;> simp
@[simp] theorem State.judgeFeed_unsaved (s : State) : (s.judgeFeed).unsaved = s.unsaved := by unfold State.judgeFeed; split <;> simp
@[simp] theorem State.judgeFeed_scrubAt (s : State) : (s.judgeFeed).scrubAt = s.scrubAt := by unfold State.judgeFeed; split <;> simp
@[simp] theorem State.judgeFeed_flush (s : State) : (s.judgeFeed).flush = s.flush := by unfold State.judgeFeed; split <;> simp
@[simp] theorem State.judgeFeed_pending (s : State) : (s.judgeFeed).pending = s.pending := by unfold State.judgeFeed; split <;> simp

/-! ### judgeStill -/

@[simp] theorem State.judgeStill_phase (old new : State) : (old.judgeStill new).phase = new.phase := by unfold State.judgeStill; split <;> [skip; split] <;> rfl
@[simp] theorem State.judgeStill_inputs (old new : State) : (old.judgeStill new).inputs = new.inputs := by unfold State.judgeStill; split <;> [skip; split] <;> rfl
@[simp] theorem State.judgeStill_mode (old new : State) : (old.judgeStill new).mode = new.mode := by unfold State.judgeStill; split <;> [skip; split] <;> rfl
@[simp] theorem State.judgeStill_lanes (old new : State) : (old.judgeStill new).lanes = new.lanes := by unfold State.judgeStill; split <;> [skip; split] <;> rfl
@[simp] theorem State.judgeStill_setup (old new : State) : (old.judgeStill new).setup = new.setup := by unfold State.judgeStill; split <;> [skip; split] <;> rfl
@[simp] theorem State.judgeStill_settings (old new : State) : (old.judgeStill new).settings = new.settings := by unfold State.judgeStill; split <;> [skip; split] <;> rfl
@[simp] theorem State.judgeStill_cranes (old new : State) : (old.judgeStill new).cranes = new.cranes := by unfold State.judgeStill; split <;> [skip; split] <;> rfl
@[simp] theorem State.judgeStill_feed (old new : State) : (old.judgeStill new).feed = new.feed := by unfold State.judgeStill; split <;> [skip; split] <;> rfl
@[simp] theorem State.judgeStill_counter (old new : State) : (old.judgeStill new).counter = new.counter := by unfold State.judgeStill; split <;> [skip; split] <;> rfl
@[simp] theorem State.judgeStill_live (old new : State) : (old.judgeStill new).live = new.live := by unfold State.judgeStill; split <;> [skip; split] <;> rfl
@[simp] theorem State.judgeStill_foul (old new : State) : (old.judgeStill new).foul = new.foul := by unfold State.judgeStill; split <;> [skip; split] <;> rfl
@[simp] theorem State.judgeStill_classes (old new : State) : (old.judgeStill new).classes = new.classes := by unfold State.judgeStill; split <;> [skip; split] <;> rfl
@[simp] theorem State.judgeStill_jobs (old new : State) : (old.judgeStill new).jobs = new.jobs := by unfold State.judgeStill; split <;> [skip; split] <;> rfl
@[simp] theorem State.judgeStill_period (old new : State) : (old.judgeStill new).period = new.period := by unfold State.judgeStill; split <;> [skip; split] <;> rfl
@[simp] theorem State.judgeStill_hooks (old new : State) : (old.judgeStill new).hooks = new.hooks := by unfold State.judgeStill; split <;> [skip; split] <;> rfl
@[simp] theorem State.judgeStill_watches (old new : State) : (old.judgeStill new).watches = new.watches := by unfold State.judgeStill; split <;> [skip; split] <;> rfl
@[simp] theorem State.judgeStill_timers (old new : State) : (old.judgeStill new).timers = new.timers := by unfold State.judgeStill; split <;> [skip; split] <;> rfl
@[simp] theorem State.judgeStill_bath (old new : State) : (old.judgeStill new).bath = new.bath := by unfold State.judgeStill; split <;> [skip; split] <;> rfl
@[simp] theorem State.judgeStill_book (old new : State) : (old.judgeStill new).book = new.book := by unfold State.judgeStill; split <;> [skip; split] <;> rfl
@[simp] theorem State.judgeStill_records (old new : State) : (old.judgeStill new).records = new.records := by unfold State.judgeStill; split <;> [skip; split] <;> rfl
@[simp] theorem State.judgeStill_notices (old new : State) : (old.judgeStill new).notices = new.notices := by unfold State.judgeStill; split <;> [skip; split] <;> rfl
@[simp] theorem State.judgeStill_engines (old new : State) : (old.judgeStill new).engines = new.engines := by unfold State.judgeStill; split <;> [skip; split] <;> rfl
@[simp] theorem State.judgeStill_damage (old new : State) : (old.judgeStill new).damage = new.damage := by unfold State.judgeStill; split <;> [skip; split] <;> rfl
@[simp] theorem State.judgeStill_lines (old new : State) : (old.judgeStill new).lines = new.lines := by unfold State.judgeStill; split <;> [skip; split] <;> rfl
@[simp] theorem State.judgeStill_store (old new : State) : (old.judgeStill new).store = new.store := by unfold State.judgeStill; split <;> [skip; split] <;> rfl
@[simp] theorem State.judgeStill_unsaved (old new : State) : (old.judgeStill new).unsaved = new.unsaved := by unfold State.judgeStill; split <;> [skip; split] <;> rfl
@[simp] theorem State.judgeStill_scrubAt (old new : State) : (old.judgeStill new).scrubAt = new.scrubAt := by unfold State.judgeStill; split <;> [skip; split] <;> rfl
@[simp] theorem State.judgeStill_flush (old new : State) : (old.judgeStill new).flush = new.flush := by unfold State.judgeStill; split <;> [skip; split] <;> rfl
@[simp] theorem State.judgeStill_pending (old new : State) : (old.judgeStill new).pending = new.pending := by unfold State.judgeStill; split <;> [skip; split] <;> rfl

/-! ### writeNow -/

@[simp] theorem State.writeNow_phase (s : State) (ks : List StoreKey) : (s.writeNow ks).phase = s.phase := rfl
@[simp] theorem State.writeNow_inputs (s : State) (ks : List StoreKey) : (s.writeNow ks).inputs = s.inputs := rfl
@[simp] theorem State.writeNow_mode (s : State) (ks : List StoreKey) : (s.writeNow ks).mode = s.mode := rfl
@[simp] theorem State.writeNow_lanes (s : State) (ks : List StoreKey) : (s.writeNow ks).lanes = s.lanes := rfl
@[simp] theorem State.writeNow_setup (s : State) (ks : List StoreKey) : (s.writeNow ks).setup = s.setup := rfl
@[simp] theorem State.writeNow_settings (s : State) (ks : List StoreKey) : (s.writeNow ks).settings = s.settings := rfl
@[simp] theorem State.writeNow_cranes (s : State) (ks : List StoreKey) : (s.writeNow ks).cranes = s.cranes := rfl
@[simp] theorem State.writeNow_feed (s : State) (ks : List StoreKey) : (s.writeNow ks).feed = s.feed := rfl
@[simp] theorem State.writeNow_counter (s : State) (ks : List StoreKey) : (s.writeNow ks).counter = s.counter := rfl
@[simp] theorem State.writeNow_live (s : State) (ks : List StoreKey) : (s.writeNow ks).live = s.live := rfl
@[simp] theorem State.writeNow_foul (s : State) (ks : List StoreKey) : (s.writeNow ks).foul = s.foul := rfl
@[simp] theorem State.writeNow_classes (s : State) (ks : List StoreKey) : (s.writeNow ks).classes = s.classes := rfl
@[simp] theorem State.writeNow_jobs (s : State) (ks : List StoreKey) : (s.writeNow ks).jobs = s.jobs := rfl
@[simp] theorem State.writeNow_period (s : State) (ks : List StoreKey) : (s.writeNow ks).period = s.period := rfl
@[simp] theorem State.writeNow_hooks (s : State) (ks : List StoreKey) : (s.writeNow ks).hooks = s.hooks := rfl
@[simp] theorem State.writeNow_watches (s : State) (ks : List StoreKey) : (s.writeNow ks).watches = s.watches := rfl
@[simp] theorem State.writeNow_timers (s : State) (ks : List StoreKey) : (s.writeNow ks).timers = s.timers := rfl
@[simp] theorem State.writeNow_bath (s : State) (ks : List StoreKey) : (s.writeNow ks).bath = s.bath := rfl
@[simp] theorem State.writeNow_book (s : State) (ks : List StoreKey) : (s.writeNow ks).book = s.book := rfl
@[simp] theorem State.writeNow_recon (s : State) (ks : List StoreKey) : (s.writeNow ks).recon = s.recon := rfl
@[simp] theorem State.writeNow_records (s : State) (ks : List StoreKey) : (s.writeNow ks).records = s.records := rfl
@[simp] theorem State.writeNow_notices (s : State) (ks : List StoreKey) : (s.writeNow ks).notices = s.notices := rfl
@[simp] theorem State.writeNow_engines (s : State) (ks : List StoreKey) : (s.writeNow ks).engines = s.engines := rfl
@[simp] theorem State.writeNow_damage (s : State) (ks : List StoreKey) : (s.writeNow ks).damage = s.damage := rfl
@[simp] theorem State.writeNow_lines (s : State) (ks : List StoreKey) : (s.writeNow ks).lines = s.lines := rfl
@[simp] theorem State.writeNow_scrubAt (s : State) (ks : List StoreKey) : (s.writeNow ks).scrubAt = s.scrubAt := rfl
@[simp] theorem State.writeNow_flush (s : State) (ks : List StoreKey) : (s.writeNow ks).flush = s.flush := rfl
@[simp] theorem State.writeNow_pending (s : State) (ks : List StoreKey) : (s.writeNow ks).pending = s.pending := rfl

/-! ### writeDue -/

@[simp] theorem State.writeDue_phase (s : State) (d : Deadline) : (s.writeDue d).phase = s.phase := by simp [State.writeDue]
@[simp] theorem State.writeDue_inputs (s : State) (d : Deadline) : (s.writeDue d).inputs = s.inputs := by simp [State.writeDue]
@[simp] theorem State.writeDue_mode (s : State) (d : Deadline) : (s.writeDue d).mode = s.mode := by simp [State.writeDue]
@[simp] theorem State.writeDue_lanes (s : State) (d : Deadline) : (s.writeDue d).lanes = s.lanes := by simp [State.writeDue]
@[simp] theorem State.writeDue_setup (s : State) (d : Deadline) : (s.writeDue d).setup = s.setup := by simp [State.writeDue]
@[simp] theorem State.writeDue_settings (s : State) (d : Deadline) : (s.writeDue d).settings = s.settings := by simp [State.writeDue]
@[simp] theorem State.writeDue_cranes (s : State) (d : Deadline) : (s.writeDue d).cranes = s.cranes := by simp [State.writeDue]
@[simp] theorem State.writeDue_feed (s : State) (d : Deadline) : (s.writeDue d).feed = s.feed := by simp [State.writeDue]
@[simp] theorem State.writeDue_counter (s : State) (d : Deadline) : (s.writeDue d).counter = s.counter := by simp [State.writeDue]
@[simp] theorem State.writeDue_live (s : State) (d : Deadline) : (s.writeDue d).live = s.live := by simp [State.writeDue]
@[simp] theorem State.writeDue_foul (s : State) (d : Deadline) : (s.writeDue d).foul = s.foul := by simp [State.writeDue]
@[simp] theorem State.writeDue_classes (s : State) (d : Deadline) : (s.writeDue d).classes = s.classes := by simp [State.writeDue]
@[simp] theorem State.writeDue_jobs (s : State) (d : Deadline) : (s.writeDue d).jobs = s.jobs := by simp [State.writeDue]
@[simp] theorem State.writeDue_period (s : State) (d : Deadline) : (s.writeDue d).period = s.period := by simp [State.writeDue]
@[simp] theorem State.writeDue_hooks (s : State) (d : Deadline) : (s.writeDue d).hooks = s.hooks := by simp [State.writeDue]
@[simp] theorem State.writeDue_watches (s : State) (d : Deadline) : (s.writeDue d).watches = s.watches := by simp [State.writeDue]
@[simp] theorem State.writeDue_timers (s : State) (d : Deadline) : (s.writeDue d).timers = s.timers := by simp [State.writeDue]
@[simp] theorem State.writeDue_bath (s : State) (d : Deadline) : (s.writeDue d).bath = s.bath := by simp [State.writeDue]
@[simp] theorem State.writeDue_book (s : State) (d : Deadline) : (s.writeDue d).book = s.book := by simp [State.writeDue]
@[simp] theorem State.writeDue_recon (s : State) (d : Deadline) : (s.writeDue d).recon = s.recon := by simp [State.writeDue]
@[simp] theorem State.writeDue_records (s : State) (d : Deadline) : (s.writeDue d).records = s.records := by simp [State.writeDue]
@[simp] theorem State.writeDue_notices (s : State) (d : Deadline) : (s.writeDue d).notices = s.notices := by simp [State.writeDue]
@[simp] theorem State.writeDue_engines (s : State) (d : Deadline) : (s.writeDue d).engines = s.engines := by simp [State.writeDue]
@[simp] theorem State.writeDue_damage (s : State) (d : Deadline) : (s.writeDue d).damage = s.damage := by simp [State.writeDue]
@[simp] theorem State.writeDue_lines (s : State) (d : Deadline) : (s.writeDue d).lines = s.lines := by simp [State.writeDue]
@[simp] theorem State.writeDue_scrubAt (s : State) (d : Deadline) : (s.writeDue d).scrubAt = s.scrubAt := by simp [State.writeDue]
@[simp] theorem State.writeDue_flush (s : State) (d : Deadline) : (s.writeDue d).flush = s.flush := by simp [State.writeDue]
@[simp] theorem State.writeDue_pending (s : State) (d : Deadline) : (s.writeDue d).pending = s.pending := by simp [State.writeDue]

/-! ### writeThrough -/

@[simp] theorem State.writeThrough_phase (old new : State) : (old.writeThrough new).phase = new.phase := by simp [State.writeThrough]
@[simp] theorem State.writeThrough_inputs (old new : State) : (old.writeThrough new).inputs = new.inputs := by simp [State.writeThrough]
@[simp] theorem State.writeThrough_mode (old new : State) : (old.writeThrough new).mode = new.mode := by simp [State.writeThrough]
@[simp] theorem State.writeThrough_lanes (old new : State) : (old.writeThrough new).lanes = new.lanes := by simp [State.writeThrough]
@[simp] theorem State.writeThrough_setup (old new : State) : (old.writeThrough new).setup = new.setup := by simp [State.writeThrough]
@[simp] theorem State.writeThrough_settings (old new : State) : (old.writeThrough new).settings = new.settings := by simp [State.writeThrough]
@[simp] theorem State.writeThrough_cranes (old new : State) : (old.writeThrough new).cranes = new.cranes := by simp [State.writeThrough]
@[simp] theorem State.writeThrough_feed (old new : State) : (old.writeThrough new).feed = new.feed := by simp [State.writeThrough]
@[simp] theorem State.writeThrough_counter (old new : State) : (old.writeThrough new).counter = new.counter := by simp [State.writeThrough]
@[simp] theorem State.writeThrough_live (old new : State) : (old.writeThrough new).live = new.live := by simp [State.writeThrough]
@[simp] theorem State.writeThrough_foul (old new : State) : (old.writeThrough new).foul = new.foul := by simp [State.writeThrough]
@[simp] theorem State.writeThrough_classes (old new : State) : (old.writeThrough new).classes = new.classes := by simp [State.writeThrough]
@[simp] theorem State.writeThrough_jobs (old new : State) : (old.writeThrough new).jobs = new.jobs := by simp [State.writeThrough]
@[simp] theorem State.writeThrough_period (old new : State) : (old.writeThrough new).period = new.period := by simp [State.writeThrough]
@[simp] theorem State.writeThrough_hooks (old new : State) : (old.writeThrough new).hooks = new.hooks := by simp [State.writeThrough]
@[simp] theorem State.writeThrough_watches (old new : State) : (old.writeThrough new).watches = new.watches := by simp [State.writeThrough]
@[simp] theorem State.writeThrough_timers (old new : State) : (old.writeThrough new).timers = new.timers := by simp [State.writeThrough]
@[simp] theorem State.writeThrough_bath (old new : State) : (old.writeThrough new).bath = new.bath := by simp [State.writeThrough]
@[simp] theorem State.writeThrough_book (old new : State) : (old.writeThrough new).book = new.book := by simp [State.writeThrough]
@[simp] theorem State.writeThrough_recon (old new : State) : (old.writeThrough new).recon = new.recon := by simp [State.writeThrough]
@[simp] theorem State.writeThrough_records (old new : State) : (old.writeThrough new).records = new.records := by simp [State.writeThrough]
@[simp] theorem State.writeThrough_notices (old new : State) : (old.writeThrough new).notices = new.notices := by simp [State.writeThrough]
@[simp] theorem State.writeThrough_engines (old new : State) : (old.writeThrough new).engines = new.engines := by simp [State.writeThrough]
@[simp] theorem State.writeThrough_damage (old new : State) : (old.writeThrough new).damage = new.damage := by simp [State.writeThrough]
@[simp] theorem State.writeThrough_lines (old new : State) : (old.writeThrough new).lines = new.lines := by simp [State.writeThrough]
@[simp] theorem State.writeThrough_scrubAt (old new : State) : (old.writeThrough new).scrubAt = new.scrubAt := by simp [State.writeThrough]
@[simp] theorem State.writeThrough_flush (old new : State) : (old.writeThrough new).flush = new.flush := by simp [State.writeThrough]
@[simp] theorem State.writeThrough_pending (old new : State) : (old.writeThrough new).pending = new.pending := by simp [State.writeThrough]

/-! ### writeLater -/

@[simp] theorem State.writeLater_phase (old new : State) (d : Deadline) : (old.writeLater new d).phase = new.phase := rfl
@[simp] theorem State.writeLater_inputs (old new : State) (d : Deadline) : (old.writeLater new d).inputs = new.inputs := rfl
@[simp] theorem State.writeLater_mode (old new : State) (d : Deadline) : (old.writeLater new d).mode = new.mode := rfl
@[simp] theorem State.writeLater_lanes (old new : State) (d : Deadline) : (old.writeLater new d).lanes = new.lanes := rfl
@[simp] theorem State.writeLater_setup (old new : State) (d : Deadline) : (old.writeLater new d).setup = new.setup := rfl
@[simp] theorem State.writeLater_settings (old new : State) (d : Deadline) : (old.writeLater new d).settings = new.settings := rfl
@[simp] theorem State.writeLater_cranes (old new : State) (d : Deadline) : (old.writeLater new d).cranes = new.cranes := rfl
@[simp] theorem State.writeLater_feed (old new : State) (d : Deadline) : (old.writeLater new d).feed = new.feed := rfl
@[simp] theorem State.writeLater_counter (old new : State) (d : Deadline) : (old.writeLater new d).counter = new.counter := rfl
@[simp] theorem State.writeLater_live (old new : State) (d : Deadline) : (old.writeLater new d).live = new.live := rfl
@[simp] theorem State.writeLater_foul (old new : State) (d : Deadline) : (old.writeLater new d).foul = new.foul := rfl
@[simp] theorem State.writeLater_classes (old new : State) (d : Deadline) : (old.writeLater new d).classes = new.classes := rfl
@[simp] theorem State.writeLater_jobs (old new : State) (d : Deadline) : (old.writeLater new d).jobs = new.jobs := rfl
@[simp] theorem State.writeLater_period (old new : State) (d : Deadline) : (old.writeLater new d).period = new.period := rfl
@[simp] theorem State.writeLater_hooks (old new : State) (d : Deadline) : (old.writeLater new d).hooks = new.hooks := rfl
@[simp] theorem State.writeLater_watches (old new : State) (d : Deadline) : (old.writeLater new d).watches = new.watches := rfl
@[simp] theorem State.writeLater_timers (old new : State) (d : Deadline) : (old.writeLater new d).timers = new.timers := rfl
@[simp] theorem State.writeLater_bath (old new : State) (d : Deadline) : (old.writeLater new d).bath = new.bath := rfl
@[simp] theorem State.writeLater_book (old new : State) (d : Deadline) : (old.writeLater new d).book = new.book := rfl
@[simp] theorem State.writeLater_recon (old new : State) (d : Deadline) : (old.writeLater new d).recon = new.recon := rfl
@[simp] theorem State.writeLater_records (old new : State) (d : Deadline) : (old.writeLater new d).records = new.records := rfl
@[simp] theorem State.writeLater_notices (old new : State) (d : Deadline) : (old.writeLater new d).notices = new.notices := rfl
@[simp] theorem State.writeLater_engines (old new : State) (d : Deadline) : (old.writeLater new d).engines = new.engines := rfl
@[simp] theorem State.writeLater_damage (old new : State) (d : Deadline) : (old.writeLater new d).damage = new.damage := rfl
@[simp] theorem State.writeLater_lines (old new : State) (d : Deadline) : (old.writeLater new d).lines = new.lines := rfl
@[simp] theorem State.writeLater_store (old new : State) (d : Deadline) : (old.writeLater new d).store = new.store := rfl
@[simp] theorem State.writeLater_scrubAt (old new : State) (d : Deadline) : (old.writeLater new d).scrubAt = new.scrubAt := rfl
@[simp] theorem State.writeLater_flush (old new : State) (d : Deadline) : (old.writeLater new d).flush = new.flush := rfl
@[simp] theorem State.writeLater_pending (old new : State) (d : Deadline) : (old.writeLater new d).pending = new.pending := rfl

/-! ### modifyJob -/

@[simp] theorem State.modifyJob_phase (s : State) (i : Nat) (f : JobSlot → JobSlot) : (s.modifyJob i f).phase = s.phase := rfl
@[simp] theorem State.modifyJob_inputs (s : State) (i : Nat) (f : JobSlot → JobSlot) : (s.modifyJob i f).inputs = s.inputs := rfl
@[simp] theorem State.modifyJob_mode (s : State) (i : Nat) (f : JobSlot → JobSlot) : (s.modifyJob i f).mode = s.mode := rfl
@[simp] theorem State.modifyJob_lanes (s : State) (i : Nat) (f : JobSlot → JobSlot) : (s.modifyJob i f).lanes = s.lanes := rfl
@[simp] theorem State.modifyJob_setup (s : State) (i : Nat) (f : JobSlot → JobSlot) : (s.modifyJob i f).setup = s.setup := rfl
@[simp] theorem State.modifyJob_settings (s : State) (i : Nat) (f : JobSlot → JobSlot) : (s.modifyJob i f).settings = s.settings := rfl
@[simp] theorem State.modifyJob_cranes (s : State) (i : Nat) (f : JobSlot → JobSlot) : (s.modifyJob i f).cranes = s.cranes := rfl
@[simp] theorem State.modifyJob_feed (s : State) (i : Nat) (f : JobSlot → JobSlot) : (s.modifyJob i f).feed = s.feed := rfl
@[simp] theorem State.modifyJob_counter (s : State) (i : Nat) (f : JobSlot → JobSlot) : (s.modifyJob i f).counter = s.counter := rfl
@[simp] theorem State.modifyJob_live (s : State) (i : Nat) (f : JobSlot → JobSlot) : (s.modifyJob i f).live = s.live := rfl
@[simp] theorem State.modifyJob_foul (s : State) (i : Nat) (f : JobSlot → JobSlot) : (s.modifyJob i f).foul = s.foul := rfl
@[simp] theorem State.modifyJob_classes (s : State) (i : Nat) (f : JobSlot → JobSlot) : (s.modifyJob i f).classes = s.classes := rfl
@[simp] theorem State.modifyJob_period (s : State) (i : Nat) (f : JobSlot → JobSlot) : (s.modifyJob i f).period = s.period := rfl
@[simp] theorem State.modifyJob_hooks (s : State) (i : Nat) (f : JobSlot → JobSlot) : (s.modifyJob i f).hooks = s.hooks := rfl
@[simp] theorem State.modifyJob_watches (s : State) (i : Nat) (f : JobSlot → JobSlot) : (s.modifyJob i f).watches = s.watches := rfl
@[simp] theorem State.modifyJob_timers (s : State) (i : Nat) (f : JobSlot → JobSlot) : (s.modifyJob i f).timers = s.timers := rfl
@[simp] theorem State.modifyJob_bath (s : State) (i : Nat) (f : JobSlot → JobSlot) : (s.modifyJob i f).bath = s.bath := rfl
@[simp] theorem State.modifyJob_book (s : State) (i : Nat) (f : JobSlot → JobSlot) : (s.modifyJob i f).book = s.book := rfl
@[simp] theorem State.modifyJob_recon (s : State) (i : Nat) (f : JobSlot → JobSlot) : (s.modifyJob i f).recon = s.recon := rfl
@[simp] theorem State.modifyJob_records (s : State) (i : Nat) (f : JobSlot → JobSlot) : (s.modifyJob i f).records = s.records := rfl
@[simp] theorem State.modifyJob_notices (s : State) (i : Nat) (f : JobSlot → JobSlot) : (s.modifyJob i f).notices = s.notices := rfl
@[simp] theorem State.modifyJob_engines (s : State) (i : Nat) (f : JobSlot → JobSlot) : (s.modifyJob i f).engines = s.engines := rfl
@[simp] theorem State.modifyJob_damage (s : State) (i : Nat) (f : JobSlot → JobSlot) : (s.modifyJob i f).damage = s.damage := rfl
@[simp] theorem State.modifyJob_lines (s : State) (i : Nat) (f : JobSlot → JobSlot) : (s.modifyJob i f).lines = s.lines := rfl
@[simp] theorem State.modifyJob_store (s : State) (i : Nat) (f : JobSlot → JobSlot) : (s.modifyJob i f).store = s.store := rfl
@[simp] theorem State.modifyJob_unsaved (s : State) (i : Nat) (f : JobSlot → JobSlot) : (s.modifyJob i f).unsaved = s.unsaved := rfl
@[simp] theorem State.modifyJob_scrubAt (s : State) (i : Nat) (f : JobSlot → JobSlot) : (s.modifyJob i f).scrubAt = s.scrubAt := rfl
@[simp] theorem State.modifyJob_flush (s : State) (i : Nat) (f : JobSlot → JobSlot) : (s.modifyJob i f).flush = s.flush := rfl
@[simp] theorem State.modifyJob_pending (s : State) (i : Nat) (f : JobSlot → JobSlot) : (s.modifyJob i f).pending = s.pending := rfl

/-! ### setBook -/

@[simp] theorem State.setBook_phase (s : State) (b : Book) : (s.setBook b).phase = s.phase := by unfold State.setBook; simp
@[simp] theorem State.setBook_inputs (s : State) (b : Book) : (s.setBook b).inputs = s.inputs := by unfold State.setBook; simp
@[simp] theorem State.setBook_mode (s : State) (b : Book) : (s.setBook b).mode = s.mode := by unfold State.setBook; simp
@[simp] theorem State.setBook_lanes (s : State) (b : Book) : (s.setBook b).lanes = s.lanes := by unfold State.setBook; simp
@[simp] theorem State.setBook_setup (s : State) (b : Book) : (s.setBook b).setup = s.setup := by unfold State.setBook; simp
@[simp] theorem State.setBook_settings (s : State) (b : Book) : (s.setBook b).settings = s.settings := by unfold State.setBook; simp
@[simp] theorem State.setBook_cranes (s : State) (b : Book) : (s.setBook b).cranes = s.cranes := by unfold State.setBook; simp
@[simp] theorem State.setBook_feed (s : State) (b : Book) : (s.setBook b).feed = s.feed := by unfold State.setBook; simp
@[simp] theorem State.setBook_counter (s : State) (b : Book) : (s.setBook b).counter = s.counter := by unfold State.setBook; simp
@[simp] theorem State.setBook_live (s : State) (b : Book) : (s.setBook b).live = s.live := by unfold State.setBook; simp
@[simp] theorem State.setBook_foul (s : State) (b : Book) : (s.setBook b).foul = s.foul := by unfold State.setBook; simp
@[simp] theorem State.setBook_classes (s : State) (b : Book) : (s.setBook b).classes = s.classes := by unfold State.setBook; simp
@[simp] theorem State.setBook_jobs (s : State) (b : Book) : (s.setBook b).jobs = s.jobs := by unfold State.setBook; simp
@[simp] theorem State.setBook_period (s : State) (b : Book) : (s.setBook b).period = s.period := by unfold State.setBook; simp
@[simp] theorem State.setBook_hooks (s : State) (b : Book) : (s.setBook b).hooks = s.hooks := by unfold State.setBook; simp
@[simp] theorem State.setBook_watches (s : State) (b : Book) : (s.setBook b).watches = s.watches := by unfold State.setBook; simp
@[simp] theorem State.setBook_timers (s : State) (b : Book) : (s.setBook b).timers = s.timers := by unfold State.setBook; simp
@[simp] theorem State.setBook_bath (s : State) (b : Book) : (s.setBook b).bath = s.bath := by unfold State.setBook; simp
@[simp] theorem State.setBook_recon (s : State) (b : Book) : (s.setBook b).recon = s.recon := by unfold State.setBook; simp
@[simp] theorem State.setBook_records (s : State) (b : Book) : (s.setBook b).records = s.records := by unfold State.setBook; simp
@[simp] theorem State.setBook_engines (s : State) (b : Book) : (s.setBook b).engines = s.engines := by unfold State.setBook; simp
@[simp] theorem State.setBook_damage (s : State) (b : Book) : (s.setBook b).damage = s.damage := by unfold State.setBook; simp
@[simp] theorem State.setBook_store (s : State) (b : Book) : (s.setBook b).store = s.store := by unfold State.setBook; simp
@[simp] theorem State.setBook_unsaved (s : State) (b : Book) : (s.setBook b).unsaved = s.unsaved := by unfold State.setBook; simp
@[simp] theorem State.setBook_scrubAt (s : State) (b : Book) : (s.setBook b).scrubAt = s.scrubAt := by unfold State.setBook; simp
@[simp] theorem State.setBook_flush (s : State) (b : Book) : (s.setBook b).flush = s.flush := by unfold State.setBook; simp
@[simp] theorem State.setBook_pending (s : State) (b : Book) : (s.setBook b).pending = s.pending := by unfold State.setBook; simp

/-! ### endBlanking -/

@[simp] theorem State.endBlanking_phase (s : State) (c : Crane) : (s.endBlanking c).phase = s.phase := rfl
@[simp] theorem State.endBlanking_inputs (s : State) (c : Crane) : (s.endBlanking c).inputs = s.inputs := rfl
@[simp] theorem State.endBlanking_mode (s : State) (c : Crane) : (s.endBlanking c).mode = s.mode := rfl
@[simp] theorem State.endBlanking_lanes (s : State) (c : Crane) : (s.endBlanking c).lanes = s.lanes := rfl
@[simp] theorem State.endBlanking_setup (s : State) (c : Crane) : (s.endBlanking c).setup = s.setup := rfl
@[simp] theorem State.endBlanking_settings (s : State) (c : Crane) : (s.endBlanking c).settings = s.settings := rfl
@[simp] theorem State.endBlanking_cranes (s : State) (c : Crane) : (s.endBlanking c).cranes = s.cranes := rfl
@[simp] theorem State.endBlanking_feed (s : State) (c : Crane) : (s.endBlanking c).feed = s.feed := rfl
@[simp] theorem State.endBlanking_counter (s : State) (c : Crane) : (s.endBlanking c).counter = s.counter := rfl
@[simp] theorem State.endBlanking_live (s : State) (c : Crane) : (s.endBlanking c).live = s.live := rfl
@[simp] theorem State.endBlanking_foul (s : State) (c : Crane) : (s.endBlanking c).foul = s.foul := rfl
@[simp] theorem State.endBlanking_classes (s : State) (c : Crane) : (s.endBlanking c).classes = s.classes := rfl
@[simp] theorem State.endBlanking_jobs (s : State) (c : Crane) : (s.endBlanking c).jobs = s.jobs := rfl
@[simp] theorem State.endBlanking_period (s : State) (c : Crane) : (s.endBlanking c).period = s.period := rfl
@[simp] theorem State.endBlanking_hooks (s : State) (c : Crane) : (s.endBlanking c).hooks = s.hooks := rfl
@[simp] theorem State.endBlanking_watches (s : State) (c : Crane) : (s.endBlanking c).watches = s.watches := rfl
@[simp] theorem State.endBlanking_bath (s : State) (c : Crane) : (s.endBlanking c).bath = s.bath := rfl
@[simp] theorem State.endBlanking_book (s : State) (c : Crane) : (s.endBlanking c).book = s.book := rfl
@[simp] theorem State.endBlanking_recon (s : State) (c : Crane) : (s.endBlanking c).recon = s.recon := rfl
@[simp] theorem State.endBlanking_records (s : State) (c : Crane) : (s.endBlanking c).records = s.records := rfl
@[simp] theorem State.endBlanking_notices (s : State) (c : Crane) : (s.endBlanking c).notices = s.notices := rfl
@[simp] theorem State.endBlanking_engines (s : State) (c : Crane) : (s.endBlanking c).engines = s.engines := rfl
@[simp] theorem State.endBlanking_damage (s : State) (c : Crane) : (s.endBlanking c).damage = s.damage := rfl
@[simp] theorem State.endBlanking_lines (s : State) (c : Crane) : (s.endBlanking c).lines = s.lines := rfl
@[simp] theorem State.endBlanking_store (s : State) (c : Crane) : (s.endBlanking c).store = s.store := rfl
@[simp] theorem State.endBlanking_unsaved (s : State) (c : Crane) : (s.endBlanking c).unsaved = s.unsaved := rfl
@[simp] theorem State.endBlanking_scrubAt (s : State) (c : Crane) : (s.endBlanking c).scrubAt = s.scrubAt := rfl
@[simp] theorem State.endBlanking_flush (s : State) (c : Crane) : (s.endBlanking c).flush = s.flush := rfl
@[simp] theorem State.endBlanking_pending (s : State) (c : Crane) : (s.endBlanking c).pending = s.pending := rfl

/-! ### setSlot -/

@[simp] theorem State.setSlot_phase (s : State) (p : Port) (slot : AnswerSlot) : (s.setSlot p slot).phase = s.phase := rfl
@[simp] theorem State.setSlot_inputs (s : State) (p : Port) (slot : AnswerSlot) : (s.setSlot p slot).inputs = s.inputs := rfl
@[simp] theorem State.setSlot_mode (s : State) (p : Port) (slot : AnswerSlot) : (s.setSlot p slot).mode = s.mode := rfl
@[simp] theorem State.setSlot_lanes (s : State) (p : Port) (slot : AnswerSlot) : (s.setSlot p slot).lanes = s.lanes := rfl
@[simp] theorem State.setSlot_setup (s : State) (p : Port) (slot : AnswerSlot) : (s.setSlot p slot).setup = s.setup := rfl
@[simp] theorem State.setSlot_settings (s : State) (p : Port) (slot : AnswerSlot) : (s.setSlot p slot).settings = s.settings := rfl
@[simp] theorem State.setSlot_cranes (s : State) (p : Port) (slot : AnswerSlot) : (s.setSlot p slot).cranes = s.cranes := rfl
@[simp] theorem State.setSlot_feed (s : State) (p : Port) (slot : AnswerSlot) : (s.setSlot p slot).feed = s.feed := rfl
@[simp] theorem State.setSlot_counter (s : State) (p : Port) (slot : AnswerSlot) : (s.setSlot p slot).counter = s.counter := rfl
@[simp] theorem State.setSlot_live (s : State) (p : Port) (slot : AnswerSlot) : (s.setSlot p slot).live = s.live := rfl
@[simp] theorem State.setSlot_foul (s : State) (p : Port) (slot : AnswerSlot) : (s.setSlot p slot).foul = s.foul := rfl
@[simp] theorem State.setSlot_classes (s : State) (p : Port) (slot : AnswerSlot) : (s.setSlot p slot).classes = s.classes := rfl
@[simp] theorem State.setSlot_jobs (s : State) (p : Port) (slot : AnswerSlot) : (s.setSlot p slot).jobs = s.jobs := rfl
@[simp] theorem State.setSlot_period (s : State) (p : Port) (slot : AnswerSlot) : (s.setSlot p slot).period = s.period := rfl
@[simp] theorem State.setSlot_hooks (s : State) (p : Port) (slot : AnswerSlot) : (s.setSlot p slot).hooks = s.hooks := rfl
@[simp] theorem State.setSlot_watches (s : State) (p : Port) (slot : AnswerSlot) : (s.setSlot p slot).watches = s.watches := rfl
@[simp] theorem State.setSlot_timers (s : State) (p : Port) (slot : AnswerSlot) : (s.setSlot p slot).timers = s.timers := rfl
@[simp] theorem State.setSlot_bath (s : State) (p : Port) (slot : AnswerSlot) : (s.setSlot p slot).bath = s.bath := rfl
@[simp] theorem State.setSlot_book (s : State) (p : Port) (slot : AnswerSlot) : (s.setSlot p slot).book = s.book := rfl
@[simp] theorem State.setSlot_recon (s : State) (p : Port) (slot : AnswerSlot) : (s.setSlot p slot).recon = s.recon := rfl
@[simp] theorem State.setSlot_records (s : State) (p : Port) (slot : AnswerSlot) : (s.setSlot p slot).records = s.records := rfl
@[simp] theorem State.setSlot_notices (s : State) (p : Port) (slot : AnswerSlot) : (s.setSlot p slot).notices = s.notices := rfl
@[simp] theorem State.setSlot_damage (s : State) (p : Port) (slot : AnswerSlot) : (s.setSlot p slot).damage = s.damage := rfl
@[simp] theorem State.setSlot_lines (s : State) (p : Port) (slot : AnswerSlot) : (s.setSlot p slot).lines = s.lines := rfl
@[simp] theorem State.setSlot_store (s : State) (p : Port) (slot : AnswerSlot) : (s.setSlot p slot).store = s.store := rfl
@[simp] theorem State.setSlot_unsaved (s : State) (p : Port) (slot : AnswerSlot) : (s.setSlot p slot).unsaved = s.unsaved := rfl
@[simp] theorem State.setSlot_scrubAt (s : State) (p : Port) (slot : AnswerSlot) : (s.setSlot p slot).scrubAt = s.scrubAt := rfl
@[simp] theorem State.setSlot_flush (s : State) (p : Port) (slot : AnswerSlot) : (s.setSlot p slot).flush = s.flush := rfl
@[simp] theorem State.setSlot_pending (s : State) (p : Port) (slot : AnswerSlot) : (s.setSlot p slot).pending = s.pending := rfl

/-! ### endTransfer -/

@[simp] theorem State.endTransfer_phase (s : State) (p : Port) : (s.endTransfer p).phase = s.phase := rfl
@[simp] theorem State.endTransfer_inputs (s : State) (p : Port) : (s.endTransfer p).inputs = s.inputs := rfl
@[simp] theorem State.endTransfer_mode (s : State) (p : Port) : (s.endTransfer p).mode = s.mode := rfl
@[simp] theorem State.endTransfer_lanes (s : State) (p : Port) : (s.endTransfer p).lanes = s.lanes := rfl
@[simp] theorem State.endTransfer_setup (s : State) (p : Port) : (s.endTransfer p).setup = s.setup := rfl
@[simp] theorem State.endTransfer_settings (s : State) (p : Port) : (s.endTransfer p).settings = s.settings := rfl
@[simp] theorem State.endTransfer_cranes (s : State) (p : Port) : (s.endTransfer p).cranes = s.cranes := rfl
@[simp] theorem State.endTransfer_feed (s : State) (p : Port) : (s.endTransfer p).feed = s.feed := rfl
@[simp] theorem State.endTransfer_counter (s : State) (p : Port) : (s.endTransfer p).counter = s.counter := rfl
@[simp] theorem State.endTransfer_live (s : State) (p : Port) : (s.endTransfer p).live = s.live := rfl
@[simp] theorem State.endTransfer_foul (s : State) (p : Port) : (s.endTransfer p).foul = s.foul := rfl
@[simp] theorem State.endTransfer_classes (s : State) (p : Port) : (s.endTransfer p).classes = s.classes := rfl
@[simp] theorem State.endTransfer_jobs (s : State) (p : Port) : (s.endTransfer p).jobs = s.jobs := rfl
@[simp] theorem State.endTransfer_period (s : State) (p : Port) : (s.endTransfer p).period = s.period := rfl
@[simp] theorem State.endTransfer_hooks (s : State) (p : Port) : (s.endTransfer p).hooks = s.hooks := rfl
@[simp] theorem State.endTransfer_watches (s : State) (p : Port) : (s.endTransfer p).watches = s.watches := rfl
@[simp] theorem State.endTransfer_timers (s : State) (p : Port) : (s.endTransfer p).timers = s.timers := rfl
@[simp] theorem State.endTransfer_bath (s : State) (p : Port) : (s.endTransfer p).bath = s.bath := rfl
@[simp] theorem State.endTransfer_book (s : State) (p : Port) : (s.endTransfer p).book = s.book := rfl
@[simp] theorem State.endTransfer_recon (s : State) (p : Port) : (s.endTransfer p).recon = s.recon := rfl
@[simp] theorem State.endTransfer_records (s : State) (p : Port) : (s.endTransfer p).records = s.records := rfl
@[simp] theorem State.endTransfer_notices (s : State) (p : Port) : (s.endTransfer p).notices = s.notices := rfl
@[simp] theorem State.endTransfer_damage (s : State) (p : Port) : (s.endTransfer p).damage = s.damage := rfl
@[simp] theorem State.endTransfer_lines (s : State) (p : Port) : (s.endTransfer p).lines = s.lines := rfl
@[simp] theorem State.endTransfer_store (s : State) (p : Port) : (s.endTransfer p).store = s.store := rfl
@[simp] theorem State.endTransfer_unsaved (s : State) (p : Port) : (s.endTransfer p).unsaved = s.unsaved := rfl
@[simp] theorem State.endTransfer_scrubAt (s : State) (p : Port) : (s.endTransfer p).scrubAt = s.scrubAt := rfl
@[simp] theorem State.endTransfer_flush (s : State) (p : Port) : (s.endTransfer p).flush = s.flush := rfl
@[simp] theorem State.endTransfer_pending (s : State) (p : Port) : (s.endTransfer p).pending = s.pending := rfl

end Sys2Proof.Machine
end

