-- ==== Sys2Proof/Laws/Links.lean ====
section
/-! SUPPORT. What the station links do with a write: one lemma for each way a request can end, and the laws of the ports and
cranes. -/

namespace Sys2Proof.Machine

/-! ### Pairs and quadruples -/

@[simp] theorem PerCrane.get_set_same {α : Type} (x : PerCrane α) (c : Crane) (v : α) : (x.set c v).get c = v := by
  cases c <;> rfl

theorem PerCrane.get_set_other {α : Type} (x : PerCrane α) {c d : Crane} (v : α) (h : d ≠ c) :
    (x.set c v).get d = x.get d := by
  cases c <;> cases d <;> first | rfl | exact absurd rfl h

@[simp] theorem PerPort.get_set_same {α : Type} (x : PerPort α) (p : Port) (v : α) : (x.set p v).get p = v := by
  cases p <;> rfl

theorem PerPort.get_set_other {α : Type} (x : PerPort α) {p q : Port} (v : α) (h : q ≠ p) :
    (x.set p v).get q = x.get q := by
  cases p <;> cases q <;> first | rfl | exact absurd rfl h

@[simp] theorem PerPort.set_set {α : Type} (x : PerPort α) (p : Port) (v w : α) : (x.set p v).set p w = x.set p w := by
  cases p <;> rfl

/-! ### Requests -/

theorem Request.ofCode_code (r : Request) : Request.ofCode r.code = some r := by cases r <;> decide

@[simp] theorem Crane.port_crane (c : Crane) : c.port.crane = some c := by cases c <;> rfl

theorem byCrane_port (c : Crane) (rule : Crane → Reply) : byCrane c.port rule = rule c := by cases c <;> rfl

/-! ### A write that is taken at once -/

theorem State.running_of_takes {s : State} {p : Port} (h : s.takes p = true) : s.phase = .running := by
  simp only [State.takes, Bool.and_eq_true, beq_iff_eq] at h
  exact h.1

theorem State.settle_of_takes {s : State} {p : Port} (h : s.takes p = true) : s.settle p = s := by
  simp only [State.takes, Bool.and_eq_true, Bool.not_eq_true'] at h
  unfold State.settle
  cases hs : (s.engines.get p).slot <;> simp_all [AnswerSlot.isPending]

theorem State.answers_of_takes {s : State} {p : Port} (h : s.takes p = true) : s.answers Config.linkAddress = true := by
  simp [State.answers, State.running_of_takes h]

/-- No request of the table allows a body beyond the receive buffer (R202, section 10.4). -/
theorem Request.room_of_lengthOk {r : Request} {n : Nat} (h : r.lengthOk n = true) : n ≤ Config.bodyRoom := by
  cases r <;> simp [Request.lengthOk, Config.bodyRoom] at h ⊢ <;> omega

/-- A body of an allowed length stands whole in the receive buffer. -/
theorem ReceiveBuffer.taken_body {r : Request} {code : Byte} {body : List Byte} (h : r.lengthOk body.length = true) :
    (ReceiveBuffer.taken code body).body = body := List.take_of_length_le (Request.room_of_lengthOk h)

@[simp] theorem ReceiveBuffer.taken_code (code : Byte) (body : List Byte) :
    (ReceiveBuffer.taken code body).code = some code := rfl

@[simp] theorem ReceiveBuffer.taken_declared (code : Byte) (body : List Byte) :
    (ReceiveBuffer.taken code body).declared = body.length := rfl

@[simp] theorem ReceiveBuffer.taken_check (code : Byte) (body : List Byte) :
    (ReceiveBuffer.taken code body).check = checkByte code body := rfl

/-- A write with a good check byte, a code of the table, a permitted role and an allowed length reaches its owning rule. -/
theorem State.writeRequest_serves {s : State} {p : Port} {r : Request} {body : List Byte} (h : s.takes p = true)
    (hp : r.roles.permits p = true) (hl : r.lengthOk body.length = true) :
    s.writeRequest p r body = (s.serve p r body).endTransfer p := by
  simp [State.writeRequest, State.writeTransfer, State.answers_of_takes h, State.settle_of_takes h, State.judge,
    State.judgeGood, Request.ofCode_code, hp, hl, ReceiveBuffer.taken_body hl]

/-- A request that its owning rule takes is accepted with the rule's answer and new state. -/
theorem State.writeRequest_done {s : State} {p : Port} {r : Request} {body ans : List Byte} {new : State}
    (h : s.takes p = true) (hp : r.roles.permits p = true) (hl : r.lengthOk body.length = true)
    (ho : ownRule r p body s = .done ans new) : s.writeRequest p r body = s.accepted p ans new := by
  rw [State.writeRequest_serves h hp hl]
  simp [State.serve, ho, State.finish, State.accepted, State.replied]

/-- A request that its owning rule refuses changes nothing but the slot (R205). -/
theorem State.writeRequest_refused {s : State} {p : Port} {r : Request} {body : List Byte} {st : Status}
    (h : s.takes p = true) (hp : r.roles.permits p = true) (hl : r.lengthOk body.length = true)
    (ho : ownRule r p body s = .refused st) : s.writeRequest p r body = s.replied p st [] := by
  rw [State.writeRequest_serves h hp hl]
  simp [State.serve, ho, State.finish, State.replied]

/-- A request that only reads changes nothing but the slot. -/
theorem State.writeRequest_told {s : State} {p : Port} {r : Request} {body ans : List Byte} (h : s.takes p = true)
    (hp : r.roles.permits p = true) (hl : r.lengthOk body.length = true) (ho : ownRule r p body s = .told ans) :
    s.writeRequest p r body = s.replied p .ok ans := by
  rw [State.writeRequest_serves h hp hl]
  simp [State.serve, ho, State.finish, State.replied]

/-- Everything a write to the part's address can do at a port that takes it: a refusal made by the engine or by the owning
rule, a read, or an accepted request. -/
theorem State.judge_cases {s : State} {p : Port} {rx : ReceiveBuffer} {check : Byte} :
    (∃ st, s.judge p rx check = s.setSlot p (.ready st [])) ∨
      ∃ r, rx.code.bind Request.ofCode = some r ∧ r.roles.permits p = true ∧ r.lengthOk rx.declared = true ∧
        s.judge p rx check = s.serve p r rx.body := by
  unfold State.judge State.judgeGood
  split
  · exact .inl ⟨_, rfl⟩
  · split
    · exact .inl ⟨_, rfl⟩
    · rename_i r hr
      split
      · exact .inl ⟨_, rfl⟩
      · split
        · exact .inl ⟨_, rfl⟩
        · exact .inr ⟨r, hr, by simp_all, by simp_all, rfl⟩

/-- Everything a request handed to its owning block can do. -/
theorem State.serve_cases (s : State) (p : Port) (r : Request) (body : List Byte) :
    (∃ st, ownRule r p body s = .refused st ∧ s.serve p r body = s.setSlot p (.ready st [])) ∨
      (∃ ans, ownRule r p body s = .told ans ∧ s.serve p r body = s.setSlot p (.ready .ok ans)) ∨
        ∃ ans new, ownRule r p body s = .done ans new ∧
          s.serve p r body = (s.endRequest new).setSlot p (.ready .ok ans) := by
  unfold State.serve
  cases h : ownRule r p body s with
  | refused st => exact .inl ⟨st, rfl, rfl⟩
  | told ans => exact .inr (.inl ⟨ans, rfl, rfl⟩)
  | done ans new => exact .inr (.inr ⟨ans, new, rfl, rfl⟩)

/-! ### What the end of a step does -/

/-- A step's writes due are made: nothing changes but the store and what is still due (R190). -/
theorem State.writeDue_frame (s : State) (d : Deadline) :
    s.writeDue d = { s with store := (s.writeDue d).store, unsaved := (s.writeDue d).unsaved } := rfl

/-- With no write due, nothing is written. -/
theorem State.writeDue_nil {s : State} (d : Deadline) (h : s.unsaved = []) : s.writeDue d = s := by
  cases s; cases h; rfl

/-- Items written now: nothing changes but the store and what is still due (R190). -/
theorem State.writeNow_frame (s : State) (keys : List StoreKey) :
    s.writeNow keys = { s with store := (s.writeNow keys).store, unsaved := (s.writeNow keys).unsaved } := rfl

/-- Everything an immersion limit's expiry can do: nothing, or the expiry of the end (R41). -/
theorem State.expireWithin_cases (s : State) (c : Crane) (lead : Nat) :
    s.expireWithin c lead = s ∨
      ∃ k, (s.cranes.get c).snapshot = some k ∧ (s.cranes.get c).canExpire = true ∧
        k.immLimit ≤ (s.cranes.get c).immTimer + lead ∧
        s.expireWithin c lead = (s.setCrane c ((s.cranes.get c).expireLimit k.immLimit)).notifyEntry c
          (s.cranes.get c).leads (.overdip (numberOr0 (s.cranes.get c).entry) (numberOr0 (s.cranes.get c).endNo)) := by
  unfold State.expireWithin
  dsimp only
  split
  · exact .inl rfl
  · rename_i k hk
    split
    · rename_i hc
      simp only [Bool.and_eq_true, decide_eq_true_eq] at hc
      exact .inr ⟨k, hk, hc.1, hc.2, rfl⟩
    · exact .inl rfl

/-- An expiry changes only the contexts and the notices. -/
theorem State.expireWithin_frame (s : State) (c : Crane) (lead : Nat) :
    s.expireWithin c lead =
      { s with cranes := (s.expireWithin c lead).cranes, notices := (s.expireWithin c lead).notices } := by
  rcases s.expireWithin_cases c lead with h | ⟨k, -, -, -, h⟩
  · rw [h]
  · rw [h]; unfold State.notifyEntry; split <;> rfl

/-- The 100 ms before a load scan change only the contexts, the feed context's lapse timer, the volatile part of the book and the
notices (log 3, R41). -/
theorem State.elapse_frame (s : State) :
    s.elapse = { s with cranes := s.elapse.cranes, feed := s.pass.feed, recon := s.pass.recon, notices := s.elapse.notices } := by
  unfold State.elapse
  rw [State.expireWithin_frame, State.expireWithin_frame s.pass]
  rfl

/-- The end of an accepted request's step changes only the quiet state, the store, its due writes and the lines. -/
theorem State.endRequest_frame (old new : State) :
    old.endRequest new =
      { new with
        recon := (old.judgeStill new).recon, store := (old.endRequest new).store
        unsaved := (old.endRequest new).unsaved, lines := (old.endRequest new).lines } := by
  unfold State.endRequest State.writeThrough State.writeDue State.writeNow State.judgeLines State.judgeStill
  split
  · rfl
  · split <;> rfl

/-- The end of an event's step changes only the quiet state, the due writes and the lines. -/
theorem State.endEvent_frame (old new : State) (d : Deadline) :
    old.endEvent new d =
      { new with
        recon := (old.judgeStill new).recon, unsaved := (old.endEvent new d).unsaved
        lines := (old.endEvent new d).lines } := by
  unfold State.endEvent State.writeLater State.judgeLines State.judgeStill
  split
  · rfl
  · split <;> rfl

end Sys2Proof.Machine
end

