-- ==== Sys2Proof/Laws/Store.lean ====
section
/-! SUPPORT. The store's words and writes: items put together of words, reading an item, a write cut off, the writes of a step; and
a load scan without a lapse. -/

namespace Sys2Proof.Machine

/-! ### Items of their own words (R189, log 9) -/

@[simp] theorem joinNat_self (n : Nat) : joinNat n n = n := Nat.div_add_mod' n 4294967296

@[simp] theorem joinInt_self (n : Int) : joinInt n n = n := by
  unfold joinInt; omega

@[simp] theorem Calibration.ofWords_const (x : Calibration) : Calibration.ofWords (fun _ => x) = x := rfl

@[simp] theorem ClassEntry.ofWords_const (x : ClassEntry) : ClassEntry.ofWords x.edition (fun _ => x) = x := rfl

@[simp] theorem JobSlot.ofWords_const (x : JobSlot) : JobSlot.ofWords (fun _ => x) = x := by
  simp [JobSlot.ofWords]

@[simp] theorem Book.ofWords_const (x : Book) : Book.ofWords (fun _ => x) = x := by simp [Book.ofWords]

@[simp] theorem periodOfWords_const (x : List PeriodEntry) : periodOfWords (fun _ => x) = x := by
  refine List.ext_getElem (by simp [periodOfWords]) fun i _ h => ?_
  simp [periodOfWords, List.getElem?_eq_getElem h]

@[simp] theorem liveOfWords_const (x : List LiveEntry) : liveOfWords (fun _ => x) = x := by
  rcases x with _ | ⟨a, _ | ⟨b, _ | ⟨c, rest⟩⟩⟩ <;> rfl

/-- Replacing an element by itself leaves the list. -/
theorem set_of_getElem? {α : Type} {xs : List α} {n : Nat} {x : α} (h : xs[n]? = some x) : xs.set n x = xs := by
  obtain ⟨hn, rfl⟩ := List.getElem?_eq_some_iff.1 h
  exact List.set_getElem_self hn

/-- Putting an item together of the words of the image itself leaves the image. -/
theorem StoreImage.weave_const (x : StoreImage) (k : StoreKey) (h : ∀ n, k ≠ .setting n) : x.weave k (fun _ => x) = x := by
  cases k with
  | setting n => exact absurd rfl (h n)
  | hook c => cases c <;> rfl
  | classFields n =>
    cases hd : x.classes[n]? with
    | none => simp [weave, hd]
    | some k => simp [weave, hd, set_of_getElem? hd]
  | classEdition n =>
    cases hd : x.classes[n]? with
    | none => simp [weave, putItem, hd]
    | some k => simp [weave, putItem, hd, set_of_getElem? (x := k) hd]
  | job n =>
    cases hd : x.jobs[n]? with
    | none => simp [weave, hd]
    | some j => simp [weave, hd, set_of_getElem? hd]
  | _ => simp [weave, putItem]

/-- A setting put leaves the settings of the other numbers. -/
theorem Settings.get_put_other (t : Settings) {m n : Nat} (v : Int) (h : n ≠ m) : (t.put m v).get n = t.get n := by
  unfold Settings.put
  split <;> first | rfl | (unfold Settings.get; split <;> first | rfl | exact absurd rfl h)

/-- A list at the place where an element was replaced. -/
theorem getElem?_set_of_some {α : Type} {xs : List α} {n : Nat} {x : α} (y : α) (h : xs[n]? = some x) :
    (xs.set n y)[n]? = some y := by
  obtain ⟨hn, -⟩ := List.getElem?_eq_some_iff.1 h
  simp [hn]

/-- Putting an item together of words leaves every other item. -/
theorem StoreImage.weave_other (x : StoreImage) {k j : StoreKey} (w : Nat → StoreImage) (h : j ≠ k) :
    sameItem (x.weave k w) x j = true := by
  cases k with
  | setting n =>
    cases j with
    | setting m => simpa [sameItem, weave, putItem] using Settings.get_put_other _ _ fun e => h (congrArg StoreKey.setting e)
    | _ => simp [sameItem, weave, putItem]
  | hook c =>
    cases j with
    | hook d => simpa [sameItem, weave] using PerCrane.get_set_other _ _ fun e => h (congrArg StoreKey.hook e)
    | _ => simp [sameItem, weave]
  | classFields n =>
    cases hd : x.classes[n]? with
    | none => cases j <;> simp [sameItem, weave, hd]
    | some d =>
      simp only [weave, hd]
      cases j with
      | classFields m => simp [sameItem, List.getElem?_set_ne fun e : n = m => h (congrArg StoreKey.classFields e.symm)]
      | classEdition m =>
        by_cases e : n = m
        · subst e; simp [sameItem, hd, getElem?_set_of_some _ hd, ClassEntry.ofWords]
        · simp [sameItem, List.getElem?_set_ne e]
      | _ => simp [sameItem]
  | classEdition n =>
    cases hd : x.classes[n]? with
    | none => cases j <;> simp [sameItem, weave, putItem, hd]
    | some d =>
      cases hk : (w 0).classes[n]? with
      | none => cases j <;> simp [sameItem, weave, putItem, hd, hk]
      | some k =>
        simp only [weave, putItem, hd, hk]
        cases j with
        | classEdition m => simp [sameItem, List.getElem?_set_ne fun e : n = m => h (congrArg StoreKey.classEdition e.symm)]
        | classFields m =>
          by_cases e : n = m
          · subst e; simp [sameItem, hd, getElem?_set_of_some _ hd, ClassEntry.unedited]
          · simp [sameItem, List.getElem?_set_ne e]
        | _ => simp [sameItem]
  | job n =>
    cases hd : x.jobs[n]? with
    | none => cases j <;> simp [sameItem, weave, hd]
    | some d =>
      simp only [weave, hd]
      cases j with
      | job m => simp [sameItem, List.getElem?_set_ne fun e : n = m => h (congrArg StoreKey.job e.symm)]
      | _ => simp [sameItem]
  | _ => cases j <;> first | exact absurd rfl h | simp [sameItem, weave, putItem]

/-- A torn word is one of the item that is torn. -/
theorem tornWord_key {key : StoreKey} {found : List BadWord} {w : WordTear} {b : BadWord} (hf : ∀ x ∈ found, x.key = key)
    (h : tornWord key found w = some b) : b.key = key := by
  unfold tornWord at h
  split at h
  · exact hf _ (List.mem_of_find?_eq_some h)
  · unfold BadWord.listed at h
    split at h
    · cases h
    · cases h; rfl

/-- A write of one item cut off leaves every other item of the store, with its words in error (R200). -/
theorem Store.tearItem_other (st : Store) (src : StoreImage) {k j : StoreKey} (words : List WordTear) (h : j ≠ k) :
    sameItem (st.tearItem src k words).image st.image j = true ∧
      (st.tearItem src k words).flips.filter (fun u => u.key == j) = st.flips.filter fun u => u.key == j := by
  refine ⟨StoreImage.weave_other _ _ h, ?_⟩
  simp only [tearItem, List.filter_append, List.filter_filter]
  rw [List.append_right_eq_self.2]
  · refine List.filter_congr fun u _ => ?_
    by_cases e : u.key = j
    · subst e; simp [h]
    · simp [e]
  · simp only [List.filter_eq_nil_iff, List.mem_filterMap, beq_iff_eq]
    rintro b ⟨w, -, hb⟩ e
    exact h (e.symm.trans (tornWord_key (by simp +contextual [Store.wordsIn]) hb))

/-- An entry of a list whose every word is still old stands as it stood (R200). -/
theorem tornEntry_kept {α : Type} (key : StoreKey) {size : Nat} (old new : Option (Marked α)) (h : 0 < size) :
    tornEntry key size old new ((List.range size).map fun i => { word := i, fate := .kept }) = old.toList := by
  have all : ((List.range size).map fun i => ({ word := i, fate := .kept } : WordTear)).filter
      (fun w => decide (w.word < size)) = (List.range size).map fun i => { word := i, fate := .kept } := by
    simp [List.filter_eq_self]
  simp only [tornEntry, all]
  rw [if_neg (by simp; omega), if_pos (by simp)]

/-- An entry of a list with no word torn stands as the change leaves it (R200). -/
@[simp] theorem tornEntry_whole {α : Type} (key : StoreKey) (size : Nat) (old new : Option (Marked α)) :
    tornEntry key size old new [] = new.toList := by simp [tornEntry]

/-! ### Words in error -/

/-- A store without words in error gives its own values (R191). -/
theorem Store.misread_of_sound (st : Store) (h : st.flips = []) : st.misread = st.image := by simp [Store.misread, h]

@[simp] theorem decodeWord_zero : decodeWord 0#39 = .sound := by decide

/-- A word that has been written back reads sound (R191). -/
theorem BadWord.reread_bits {b : BadWord} (h : decodeWord b.bits = .corrected) : b.reread.bits = 0 := by
  simp [BadWord.reread, h]

/-- A word with no bit in error reads as it was last left. -/
theorem BadWord.reads_of_sound {b : BadWord} (h : b.bits = 0) : b.reads = b.wrong := by
  rw [BadWord.reads, if_pos (by rw [h]; decide)]

/-- A word that has been read reads again as what it read (R191). -/
@[simp] theorem BadWord.reread_reads (b : BadWord) : b.reread.reads = b.reads := by
  unfold BadWord.reread
  split
  · exact BadWord.reads_of_sound rfl
  · rfl

/-- A word that has been read is damaged again exactly when it was. -/
@[simp] theorem BadWord.reread_damaged (b : BadWord) : (decodeWord b.reread.bits = .damaged) ↔ decodeWord b.bits = .damaged := by
  unfold BadWord.reread
  split <;> rename_i h <;> simp [h]

@[simp] theorem BadWord.reread_key (b : BadWord) : b.reread.key = b.key := by unfold BadWord.reread; split <;> rfl
@[simp] theorem BadWord.reread_word (b : BadWord) : b.reread.word = b.word := by unfold BadWord.reread; split <;> rfl

/-- A fold over words that have been read, where every word that is listed after its reading counts as before it. -/
theorem foldl_reread {α : Type} (f : α → BadWord → α) (p read : BadWord → Bool) (hp : ∀ b, p b.reread = p b)
    (hf : ∀ x b, p b → f x b.reread = f x b) (h0 : ∀ b, p b → b.reread.listed = some b.reread) (bs : List BadWord) (x : α) :
    ((bs.filterMap fun b => if read b then b.reread.listed else some b).filter p).foldl f x = (bs.filter p).foldl f x := by
  induction bs generalizing x with
  | nil => rfl
  | cons b bs ih =>
    by_cases hb : p b
    · by_cases hr : read b <;> simp [hr, hb, hp, hf, h0, ih]
    · by_cases hr : read b
      · cases hl : b.reread.listed with
        | none => simp [hr, hb, hl, ih]
        | some c =>
          have : c = b.reread := by
            unfold BadWord.listed at hl
            split at hl <;> cases hl
            rfl
          simp [hr, hb, hl, this, hp, ih]
      · simp [hr, hb, ih]

/-- A store of which words have been read reads as it did: a word written back as corrected gives thereafter the data that were
used (R191). -/
theorem Store.misread_rereadWords (st : Store) (read : BadWord → Bool) : (st.rereadWords read).misread = st.misread := by
  unfold Store.misread Store.rereadWords
  refine foldl_reread _ _ _ (fun b => ?_) (fun img b _ => by simp) (fun b hb => ?_) _ _
  · simp [bne, BEq.beq]
  · simp only [Bool.and_eq_true, bne_iff_ne, ne_eq] at hb
    refine if_neg fun h => hb.2 ?_
    rw [← BadWord.reread_reads, BadWord.reads_of_sound h.2, h.1]

/-- An item reads as the value given exactly when no word of it decodes as damaged (R191). -/
theorem Store.readItem_eq_some {α : Type} {st : Store} {k : StoreKey} {v x : α} :
    st.readItem k v = some x ↔ x = v ∧ ∀ w ∈ st.wordsIn k 0, decodeWord w.bits ≠ .damaged := by
  unfold Store.readItem
  split <;> rename_i h
  · simp only [List.any_eq_true, beq_iff_eq] at h
    simp only [reduceCtorEq, false_iff, not_and, not_forall]
    rintro -
    obtain ⟨w, hw, hd⟩ := h
    exact ⟨w, hw, fun e => e hd⟩
  · simp only [List.any_eq_true, beq_iff_eq, not_exists, not_and] at h
    simp only [Option.some.injEq]
    exact ⟨fun e => ⟨e.symm, h⟩, fun e => e.1.symm⟩
/-! ### Writes (R190) -/

/-- What a step from one image to another writes among some items. -/
theorem mem_differing {keys : List StoreKey} {a b : StoreImage} {k : StoreKey} (h : k ∈ differing keys a b) :
    k ∈ keys ∧ writesItem a b k = true := by
  unfold differing at h
  split at h
  · cases h
  · simpa using h

/-- A step writes an item other than the list of records exactly when it changed it. -/
theorem writesItem_of_ne {a b : StoreImage} {k : StoreKey} (h : k ≠ .records) : writesItem a b k = !sameItem a b k := by
  simp [writesItem, h]

/-- A step writes the list of records exactly when it changed the list, or queued or counted a record. -/
theorem writesItem_records {a b : StoreImage} :
    writesItem a b .records = true ↔ a.records.items ≠ b.records.items ∨ a.records.offered ≠ b.records.offered := by
  simp [writesItem, sameItem]

/-- A step that queues or counts a record writes the list of records and the lost count together (R178). -/
theorem records_and_lost_together {a b : StoreImage} (h : a.records.offered ≠ b.records.offered) :
    .records ∈ changedKeys a b ∧ .lost ∈ changedKeys a b := by
  have ne : a ≠ b := fun e => h (e ▸ rfl)
  unfold changedKeys differing
  rw [if_neg ne]
  simp [writesItem, sameItem, h, storeKeys, lateKeys]

/-- What a request writes over steps that are still due: its own items, and the lost count of a due record that the list it writes
holds (R178). -/
theorem mem_withDueLost {due keys : List StoreKey} {k : StoreKey} :
    k ∈ withDueLost due keys ↔ k ∈ keys ∨ (k = .lost ∧ .records ∈ keys ∧ .lost ∈ due) := by
  unfold withDueLost
  split <;> rename_i h
  · simp only [List.mem_append, List.mem_singleton]
    tauto
  · by_cases e : k = .lost
    · subst e; tauto
    · simp [e]

/-- A job that a step closes is still in its old state in the step's first writes, and nothing else differs there. -/
theorem StoreImage.unclosed_eq (new old : StoreImage) : new.unclosed old = { new with jobs := (new.unclosed old).jobs } := rfl

@[simp] theorem StoreImage.unclosed_jobs_length (new old : StoreImage) :
    (new.unclosed old).jobs.length = new.jobs.length := by simp [StoreImage.unclosed]

/-- A step's writes come in at most two parts: those before a job closes, and the rest. -/
theorem mem_stepWrites {old new : StoreImage} {w : StepWrites} (h : w ∈ stepWrites old new) :
    w.keys ≠ [] ∧ (w.image = new.unclosed old ∨ w.image = new) := by
  simp only [stepWrites, List.mem_filter, List.mem_cons, List.not_mem_nil, or_false] at h
  obtain ⟨rfl | rfl, h⟩ := h <;> simp_all

/-! ### Lapses at a load scan (R14) -/

/-- A context whose lapse timer does not run out is left by the 100 ms before a load scan. -/
theorem State.runOut_of_not {s : State} {c : Context} (h : s.lapsesAt c = false) : s.runOut c = s := by
  simp [State.runOut, h]

/-- Without a lapse a load scan begins with the state that its deadline's writes leave. -/
theorem State.runOuts_of_noLapse {s : State} (h : s.noLapse) : s.runOuts = s := by
  simp [State.runOuts, State.runOut_of_not (h _)]

end Sys2Proof.Machine
end

