-- ==== Sys2Proof/Tests/Slice0.lean ====
section
/-! SUPPORT. Tests of the model against the spec's worked examples, a smoke test of every well-formedness check, and for every
statement with hypotheses a concrete state and operands that meet them. -/

namespace Sys2Proof.Tests

open Sys2Proof Sys2Proof.Machine

-- The tests are elaborated one after another: each evaluates in the kernel, and many at once want too many threads.
set_option Elab.async false

/-! ### Helpers -/

/-- The state an outcome answers; the reset state where it answers none. -/
def after : Outcome → State
  | .next s => s
  | _ => State.reset

/-- A reading without overload. -/
def reading24 (v : Int) : Reading := { raw := BitVec.ofInt 24 v, overload := false }

/-- A reset part in RUN at 450.0 degrees with the job 4102 OPEN in slot 5, its default class 2, and a VALID book of 3,100,000. -/
def ready : State :=
  { State.reset with
    mode := .run
    bath := { BathScanner.restarted with stored := some 4500 }
    jobs := State.reset.jobs.set 5
      { JobSlot.vacant .opened with number := some 4102, defaultClass := some 2, openDips := 1 }
    book := { Book.blank with mass := 3100000, opening := 3100000, state := .valid } }

/-- The state with every line at its level. -/
def lined (s : State) : State := { s with lines := { s.lineLevels with feed := s.feedLevel } }

/-- The context of a WORK entry 7 of job 4102, class 2, on lanes 2 to 4, RESERVED. -/
def workEntry : CraneContext :=
  { CraneContext.idle none with
    entry := some 7, kind := some .work, state := .reserved, job := some { number := 4102, slot := 5 }, classNo := some 2
    snapshot := some (ClassEntry.factory 0), span := some { f := 2, l := 4 }, lapse := some 900 }

/-- A ready part with crane A's context given, its lanes taken and its number live. -/
def working (x : CraneContext) : State :=
  lined { ready with
    cranes := ⟨x, CraneContext.idle none⟩
    lanes := takeSpan freeLanes { f := 2, l := 4 } .craneA 7
    live := [{ entry := 7, holders := .craneA }]
    counter := 8 }

/-- The entry WITHDRAWING at end 1 after 190.5 s. -/
def withdrawing : CraneContext :=
  { workEntry with
    state := .withdrawing, lapse := none, endNo := some 1, immTimer := 1905, immRunning := true, submerged := some 45
    black := some 12840 }

/-- The entry DRAINING, its timer and its watch after blanking. -/
def draining (t : DrainTimer) (w : Watch) : State :=
  { working { withdrawing with state := .draining, immRunning := false, immTimes := [1905] } with
    timers := ⟨t, DrainTimer.idle⟩, watches := ⟨w, Watch.inactive⟩ }

/-- A drain timer in EITHER mode at counter 100 of range 3, its compare 300, after blanking. -/
def runningTimer : DrainTimer :=
  { state := .running, counter := 100, range := 3, compare := 300, hold := some 1200, mode := some .either
    inBlanking := false, timedPending := false, sensed := none }

/-- The watch of the example of section 3.6 after its eleventh scan after blanking. -/
def window8 : Watch :=
  { Watch.inactive with
    phase := .after, condition := .opened, afterScans := 11, width := 8, threshold := 10, blanking := 2
    window := [13632, 13625, 13620, 13616, 13614, 13612, 13611, 13611]
    tail := [13614, 13612, 13611, 13611].map fun m => { mass := m, inBlanking := false } }

/-- A ready part whose crane A leads a tandem entry 7 that both cranes have RESERVED, join-pending. -/
def tandem : State :=
  lined { ready with
    cranes :=
      ⟨{ workEntry with link := .lead, join := some .joinPending },
        { CraneContext.idle none with
          entry := some 7, state := .reserved, span := some { f := 2, l := 4 }, link := .linked, join := some .joinPending }⟩
    lanes := takeSpan freeLanes { f := 2, l := 4 } .tandem 7
    live := [{ entry := 7, holders := .both }] }

/-- A ready part with a charge of 25,000 reserved under number 9. -/
def charging : State :=
  lined { ready with
    feed := { entry := some 9, reserved := true, span := some { f := 11, l := 11 }, mass := some 25000, lapseMark := none
              lapse := some 900 }
    lanes := takeSpan freeLanes { f := 11, l := 11 } .feed 9
    live := [{ entry := 9, holders := .feed }] }

/-- A stopped part. -/
def stoppedPart : State := { State.reset with phase := .flushed }

/-! ### The spec's worked examples -/

/-- R203: a STATUS request has the check byte 0x67. -/
theorem test_check_byte : checkByte 0x01 [] = 0x67 := by decide +kernel

/-- R203: the running check is 0x6D after the code byte and 0x51 after the first length byte. -/
theorem test_running_check : crc [0x01] = 0x6D ∧ crc [0x01, 0x00] = 0x51 := by decide +kernel

/-- R57: the mass 24,338, and -1 by the tie rule. -/
theorem test_mass :
    Calibration.mass { zero := 31250, span := 1562, calibrated := true } 1052400 = 24338 ∧
      Calibration.mass { zero := 31250, span := 32768, calibrated := true } 31249 = -1 := by decide

/-- Section 3.4: eight samples 12,836 to 12,844 have the steady mean 12,840. -/
theorem test_steady_mean :
    steadyMean .good ([12836, 12840, 12844, 12838, 12842, 12840, 12839, 12841].map fun m => { raw := m, mass := some m })
      Settings.default = some 12840 := by decide +kernel

/-- Section 3.6: the twelfth scan after blanking reports the newer mean 13,611; the eighth does not. -/
theorem test_sensed_window :
    window8.sensedAt (some 13610) false = some 13611 ∧
      ({ window8 with window := [13660, 13650, 13640, 13632, 13625, 13620, 13616] } : Watch).sensedAt (some 13614) false =
        none ∧
      newerMean [13660, 13650, 13640, 13632, 13625, 13620, 13616, 13614] 8 = 13619 ∧
      olderMean [13660, 13650, 13640, 13632, 13625, 13620, 13616, 13614] 8 = 13646 := by decide

/-- Section 3.7: the pickup of the example is 771. -/
theorem test_pickup : credited (massDifference (some 12840) (some 13611)) = some 771 := by decide

/-- R91: a hold of 65,473 ds gives a compare of 1024 at range 7; one of 65,472 gives 1023. -/
theorem test_compare : compareOf 65473 7 = 1024 ∧ compareOf 65472 7 = 1023 := by decide

/-- R87, R88: saturation stands at 65,472 ds. -/
theorem test_saturated_duration :
    ({ runningTimer with range := 7 } : DrainTimer).saturate.duration = 65472 := by decide

/-- Section 5.4: the flows of a morning. -/
theorem test_flows :
    let b := { ready.book with mass := 3100000 }
    ((((b.chargeFlow 25000).pickupFlow 771).drossFlow (fraction256 6420 243)).ashFlow (fraction256 8000 180)) =
      { b with mass := 3112511, charged := 25000, picked := 771, dross := 6093, ash := 5625 } := by decide +kernel

/-- Section 6.7: the dross shares 4015, 1593 and 485 of 6093. -/
theorem test_shares :
    sharesOf 6093 [⟨0, 18450⟩, ⟨1, 7320⟩, ⟨2, 2230⟩] = [4015, 1593, 485] := by decide

/-- Section 6.8: the dross shares 3777, 1498 and 818 of 6093. -/
theorem test_shares_after_a_close : sharesOf 6093 [⟨0, 18450⟩, ⟨1, 7320⟩, ⟨2, 4000⟩] = [3777, 1498, 818] := by decide

/-- Section 11.6: the gauge mass 2,980,401 and the trim limited to -1000. -/
theorem test_reconcile :
    let t := { Settings.default with floorLevel := 250, areaDensity := 41200 }
    gaugeMass t (300310 / 16) = 2980401 ∧ trimOf t (2975373 - 2980401) = -1000 := by decide

/-- R155: a remainder unit goes to the first entry, even one whose floor share is 0. -/
theorem test_remainder_unit : sharesOf 1 [⟨3, 1⟩, ⟨9, 1⟩] = [1, 0] := by decide

/-- Section 2.11: WITHDRAW after 1785 ds under, with the minimum 600, takes no SHORT_DIP. -/
theorem test_time_under :
    withdrawFlags
        { withdrawing with
          state := .immersed, immTimer := 1830
          snapshot := some { ClassEntry.factory 9 with immMin := 600, immLimit := 1800 } } = EntryFlags.empty := by decide

/-- Section 2.11: RESERVE takes 305 for lanes 2 to 4, the counter goes to 306 and the job's open dips rise. -/
theorem test_reserve :
    let s := after (exec (.reserve .craneA [1, 0, 2, 4, 0x06, 0x10, 0x00, 255]) { ready with counter := 305 })
    s.lanes = takeSpan freeLanes { f := 2, l := 4 } .craneA 305 ∧ s.counter = 306 ∧ (s.job 5).openDips = 2 ∧
      (s.engines.get .craneA).slot = .ready .ok [0x31, 0x01] := by decide +kernel

/-- Section 2.11: LOWER takes the black mass 12,840, starts the immersion timer at 0 and takes the permit away. -/
theorem test_lower :
    let h : Hook := { Hook.restarted Calibration.newPart with steady := some 12840 }
    let s := after (exec (.lower .craneA []) { working workEntry with hooks := ⟨h, h⟩ })
    (s.cranes.get .craneA).state = .lowering ∧ (s.cranes.get .craneA).black = some 12840 ∧
      (s.cranes.get .craneA).immTimer = 0 ∧ (s.cranes.get .craneA).lapse = none ∧ s.lines.permit.craneA = false := by
  decide +kernel

/-- Section 2.11: the limit expiry at 1800 takes OVERDIP, queues the notice and raises the withdraw-demand line. -/
theorem test_limit :
    let k := { ClassEntry.factory 9 with immMin := 600, immLimit := 1800 }
    let x := { withdrawing with state := .immersed, immTimer := 1800, snapshot := some k }
    let s := after (exec (.immersionLimitExpiry .craneA) (working x))
    (s.cranes.get .craneA).flags.overdip = true ∧ (s.cranes.get .craneA).immTimer = 1800 ∧
      s.notices.craneA.items = [.overdip 7 1] ∧ s.lines.wdraw.craneA = true := by decide +kernel

/-- R41: the load scan that brings the immersion timer to its limit takes OVERDIP; the one before it does not. -/
theorem test_scan_limit :
    let x := fun t : Nat =>
      { withdrawing with immTimer := t, snapshot := some { ClassEntry.factory 9 with immLimit := 1800 } }
    let s := fun t : Nat => after (exec (.loadScan (reading24 0) (reading24 0) .craneA) (working (x t)))
    ((s 1799).cranes.get .craneA).flags.overdip = true ∧ (s 1799).notices.craneA.items = [.overdip 7 1] ∧
      ((s 1798).cranes.get .craneA).flags.overdip = false ∧ (s 1798).notices.craneA.items = [] := by decide +kernel

/-- R14, R15: the load scan that runs the lapse timer out lapses the reservation; the one before it does not. -/
theorem test_scan_lapse :
    let s := fun t : Nat =>
      after (exec (.loadScan (reading24 0) (reading24 0) .craneA) (working { workEntry with lapse := some t }))
    ((s 1).cranes.get .craneA).state = .idle ∧ ((s 1).cranes.get .craneA).lapseMark = some 7 ∧
      (s 1).notices.craneA.items = [.lapsed 7] ∧ (s 1).store.image.live = [] ∧
      ((s 2).cranes.get .craneA).state = .reserved ∧ ((s 2).cranes.get .craneA).lapse = some 1 := by decide +kernel

/-- R156, R158, R190: an allocation writes the shares and the emptied period list before it closes a job. -/
theorem test_allocation_order :
    let slot := { JobSlot.vacant .closing with number := some 4102 }
    let old := { ready.image with jobs := ready.jobs.set 5 slot, period := [{ slot := 5, black := 1 }] }
    let new := { old with jobs := ready.jobs.set 5 { slot with state := .closed, drossShare := 9 }, period := [] }
    (stepWrites old new).map StepWrites.keys = [[.job 5, .period], [.job 5]] := by decide +kernel

/-- R200: a slot whose write was cut off keeps the words that the change does not alter, here its number and its state. -/
theorem test_torn_slot :
    let new := { ready.image with jobs := ready.jobs.modify 5 fun j => { j with dipCount := 3 } }
    let st := ({ ready.store with image := ready.image } : Store).tearItem new (.job 5) [⟨0, .mixed 3⟩, ⟨7, .kept⟩]
    (st.image.jobs[5]?).map JobSlot.number = some (some 4102) ∧ (st.image.jobs[5]?).map JobSlot.dipCount = some 0 ∧
      st.flips = [] := by decide +kernel

/-- R178: a step whose second record finds the queue full after its first carried the gap of 1 leaves the lost count at 1, and
writes it together with the record. -/
theorem test_lost_count_is_written :
    let old : RecordQueue := { items := List.replicate 31 Record.cleanRestart, lost := 1, offered := 40 }
    let new := (old.push (.bookOpened 1)).push (.bookOpened 2)
    new.lost = 1 ∧ changedKeys { ready.image with records := old } { ready.image with records := new } = [.records, .lost] := by
  decide +kernel

/-- R178: a record that a full queue counts at the bound of the lost count writes it in its place, with the list of records; and a
TAKE RECORDS over a scan's record that is still due writes the lost count with it. -/
theorem test_lost_count_in_its_place :
    (let old : RecordQueue := { items := List.replicate 32 Record.cleanRestart, lost := 65535, offered := 0 }
     changedKeys { ready.image with records := old } { ready.image with records := old.push (.bookOpened 1) } = [.records, .lost]) ∧
    (let stored : RecordQueue := { items := [Record.cleanRestart], lost := 2, offered := 3 }
     let s : State :=
       { ready with
         records := stored.push (.bookOpened 1)
         store := { ready.store with image := { ready.image with records := stored } }
         unsaved := [{ due := .bathScan
                       writes := [{ image := { ready.image with records := stored.push (.bookOpened 1) }
                                    keys := [.records, .lost] }] }] }
     let t := after (exec (.takeRecords .office [1]) s)
     t.store.image.records = t.records ∧ t.records.lost = 0 ∧ t.unsaved = []) := by decide +kernel

/-- A queue of 31 records and a lost count of 2 is stored, and the write of a bath scan's record, which took the gap, is still due. -/
def trimDue : State :=
  let stored : RecordQueue := { items := List.replicate 31 Record.cleanRestart, lost := 2, offered := 33 }
  { ready with
    records := stored.push (.trim 5 1)
    store := { ready.store with image := { ready.image with records := stored } }
    unsaved := [{ due := .bathScan
                  writes := [{ image := { ready.image with records := stored.push (.trim 5 1) }, keys := [.records, .lost] }] }] }

/-- R178: a SKIM that finds the queue full makes the scan's record durable together with its own lost count of 1. -/
theorem test_counted_skim_over_a_due_record :
    let t := after (exec (.skim .feed [100, 0]) trimDue)
    trimDue.records.items.getLast? = some ⟨some 2, .trim 5 1⟩ ∧
      t.records = { trimDue.records with lost := 1, offered := 35 } ∧ t.store.image.records = t.records ∧ t.unsaved = [] := by
  decide +kernel

/-- R6: a job number of 0, or one above 999,999, names no slot, whatever a slot holds; R23: CLEAR FOUL of number 0 is refused. -/
theorem test_numbers_out_of_range :
    ([0, 1000000].all fun n => ({ ready with
      jobs := ready.jobs.set 5 { JobSlot.vacant .opened with number := some n } } : State).slotOf n == none) = true ∧
    clearFoulRule [0, 0] { ready with lanes := ready.lanes.set 3 { holder := .foul, entry := some 0 } } =
      .refused .badValue := by decide +kernel

/-- R177, R200: two records are being queued; a collapse after the first leaves it alone when every word of the second is still
old, and both when every word is new. -/
theorem test_torn_records :
    let new := { ready.image with records := { ready.image.records with items := ready.image.records.items ++
      [⟨none, .bookOpened 1⟩, ⟨none, .bookOpened 2⟩] } }
    let st : Store := { ready.store with image := ready.image }
    let left := fun words => (st.tear new .records { edits := 1, words := words }).image.records.items
    left ((List.range 115).map fun i => { word := i, fate := .kept }) = ready.image.records.items ++ [⟨none, .bookOpened 1⟩] ∧
      left [] = ready.image.records.items ++ [⟨none, .bookOpened 1⟩, ⟨none, .bookOpened 2⟩] := by decide +kernel

/-- R191: a word with one bit in error that a wrong correction has left with other data keeps these when it is corrected. -/
theorem test_wrong_word_stays :
    let b : BadWord := { key := .setup, pos := 0, word := 0, wrong := 0x47, bits := 8 }
    (({ ready.store with flips := [b] } : Store).rereadWords fun _ => true).flips = [{ b with bits := 0 }] := by decide +kernel

/-- R60, R190: a SET HOOK writes its hook's item even where its values stay, and the item's words are sound again. -/
theorem test_set_hook_writes :
    let bad : BadWord := { key := .hook .craneA, pos := 0, word := 1, wrong := 0, bits := 3 }
    let s := { ready with store := { ready.store with flips := [bad] } }
    (after (exec (.setHook .office [1, 0, 0, 0, 0xFF, 0xFF]) s)).store.flips = [] := by decide +kernel

/-- R130: a LOWER, at which the kettle stops being still, takes a pending reconcile back. -/
theorem test_lower_clears_pending :
    (after (exec (.lower .craneA []) { working workEntry with recon := { ready.recon with pending := true } })).recon.pending =
      false := by decide +kernel

/-- R192: the scrub writes the setup's damaged word back from the working copy. -/
theorem test_scrub_damaged :
    let bad : Upset := { key := .setup, pos := 0, word := 0, bits := 3 }
    let t := after (exec (.bathScan (reading24 0) (reading24 0) [bad]) ready)
    t.store.flips = [] ∧ t.store.image.setup = ready.setup ∧ t.scrubAt = 1 := by decide +kernel

/-- Section 2.11: CLEAR at 1905 appends the immersion time, starts the drain timer and takes the demand away. -/
theorem test_clear :
    let s := after (exec (.clear .craneA [])
      (working { withdrawing with demand := { overdip := true, stop := false } }))
    (s.cranes.get .craneA).state = .draining ∧ (s.cranes.get .craneA).immTimes = [1905] ∧
      (s.timers.get .craneA).state = .running ∧ s.lines.wdraw.craneA = false := by decide +kernel

/-- Sections 2.11, 3.6: the scan of 13,610 ends the drain SENSED; the book is debited 771. -/
theorem test_sensed_end :
    let s := after (exec (.loadScan (reading24 13610) (reading24 0) .craneA) (draining runningTimer window8))
    (s.cranes.get .craneA).state = .drained ∧ s.book.mass = 3100000 - 771 ∧ (s.job 5).pickupTotal = 771 ∧
      s.period = [{ slot := 5, black := 12840 }] ∧
      s.notices.craneA.items = [.drainEnd 7 .work .sensed (some 771)] := by decide +kernel

/-- Section 5.4: SKIM of 8000 takes 5625 from the book. -/
theorem test_skim :
    (after (exec (.skim .feed [0x40, 0x1F]) ready)).book = { ready.book with mass := 3094375, ash := 5625 } := by
  decide +kernel

/-! ### Well-formedness: each check refuses an ill-formed term -/

/-- A body of 65,536 bytes cannot be declared. -/
theorem test_bodyFits_refuses : bodyFits (List.replicate 65536 0) = false := by
  simp only [bodyFits, List.length_replicate]; decide

/-- A write whose check byte has come is not short. -/
theorem test_shortOfCheck_refuses : (Instr.shortWrite .feed 0x4B [0x01, 0x00, 0x00, 0x67] .stop).wellFormed = false := by
  decide

/-- A disturbance flips some bit, and names a word the item has. -/
theorem test_upsetReal_refuses :
    upsetReal { key := .book, pos := 0, word := 0, bits := 0 } = false ∧
      upsetReal { key := .book, pos := 0, word := 15, bits := 1 } = false ∧
      upsetReal { key := .book, pos := 0, word := 14, bits := 1 } = true := by decide +kernel

/-- A restart is cut after at most the 157 items of the store or step 1 of its end, which has no item whose words it reads. -/
theorem test_cutReal_refuses :
    (Instr.powerOn [] (some { after := 159, words := 0, cause := .reset })).wellFormed = false ∧
      (Instr.powerOn [] (some { after := 157, words := 1, cause := .reset })).wellFormed = false ∧
      (Instr.powerOn [] (some { after := 158, words := 0, cause := .reset })).wellFormed = true ∧
      (Instr.powerOn [] (some { after := 156, words := 115, cause := .reset })).wellFormed = true := by decide +kernel

/-- A tear gives each word one fate. -/
theorem test_tearReal_refuses :
    tearReal { written := 0, torn := some { edits := 0, words := [⟨4, .kept⟩, ⟨4, .mixed 2⟩] } } = false ∧
      tearReal { written := 0, torn := some { edits := 0, words := [⟨4, .kept⟩, ⟨5, .mixed 2⟩] } } = true := by decide

/-- An ordinary command is well formed. -/
theorem test_wellFormed_accepts : (Instr.reserve .craneA [1, 0, 2, 4, 6, 16, 0, 255]).wellFormed = true := by decide

/-! ### Witnesses: states and operands that meet the hypotheses of the statements -/

/-- Holders of lanes 2 to 4 of an empty map. -/
theorem free_lanes (i : Nat) (h : i < 16) : (freeLanes[i]?).map Lane.holder = some .free := by
  interval_cases i <;> rfl

/-- Step_takes_the_front_command: a queue of one command, and an empty one. -/
theorem witness_step : ({ State.reset with pending := [.stopFall] } : State).pending = .stopFall :: [] ∧
    State.reset.pending = [] := ⟨rfl, rfl⟩

/-- First_restart_of_a_new_part_is_reset. -/
theorem witness_first_restart :
    let s : State := { State.reset with phase := .flushed, store := { image := StoreImage.newPart, flips := [] } }
    s.phase = .flushed ∧ s.store = { image := StoreImage.newPart, flips := [] } ∧ s.inputs.resetAsserted = false ∧
      s.inputs.stopLow = false ∧ s.pending = [] := ⟨rfl, rfl, rfl, rfl, rfl⟩

/-- A part with a tandem entry that waits for crane B's JOIN, which stands at the front of its queue. -/
def joining : State := { tandem with pending := [.join .craneB (u16 7)] }

/-- Queues_stay_bounded, Answers_fit_their_slots and every other law of each step: a step that answers a next state. -/
theorem witness_step_answers : (∃ t : State, step joining = .next t) ∧ joining.lanes.length = Config.laneCount :=
  ⟨⟨_, rfl⟩, by decide +kernel⟩

/-- Queues_stay_bounded: the bound. -/
theorem witness_queues : joining.queuesBounded :=
  ⟨by decide +kernel, fun p => by cases p <;> decide +kernel⟩

/-- Cranes_keep_their_order: crane A on lanes 2 to 4, crane B on lane 6, G = 1. -/
theorem witness_order :
    craneOrder (takeSpan (takeSpan freeLanes { f := 2, l := 4 } .craneA 7) { f := 6, l := 6 } .craneB 8) 1 := by
  intro i j hi hj
  have : i < 16 := by
    by_contra h
    rw [List.getElem?_eq_none (by simp [takeSpan, freeLanes, Config.laneCount]; omega)] at hi
    exact absurd hi (by simp)
  have : j < 16 := by
    by_contra h
    rw [List.getElem?_eq_none (by simp [takeSpan, freeLanes, Config.laneCount]; omega)] at hj
    exact absurd hj (by simp)
  have hi' : i ≤ 4 := by
    by_contra h
    interval_cases i <;> exact absurd hi (by decide)
  have hj' : 6 ≤ j := by
    by_contra h
    interval_cases j <;> exact absurd hj (by decide)
  omega

/-- Lane_records_keep_their_form. -/
theorem witness_lanes : lanesFormed joining.lanes := ⟨by decide +kernel, by decide +kernel⟩

/-- Tandem_contexts_agree. -/
theorem witness_tandem : joining.tandemLawful := by
  refine ⟨⟨?_, ?_, ?_, ?_, ?_, ?_⟩, ?_, ?_⟩
  all_goals first | decide +kernel | exact fun c => by cases c <;> decide +kernel

/-- An_accepted_request_is_durable_and_its_lines_follow: a request that takes a record from the queue while a scan's lost count is
due. -/
theorem witness_due_lost :
    let queue : RecordQueue := { items := [Record.cleanRestart, Record.cleanRestart], lost := 0, offered := 4 }
    let s : State :=
      { ready with
        records := queue
        unsaved := [{ due := .bathScan, writes := [{ image := { ready.image with records := queue }, keys := [.records, .lost] }] }] }
    let new : State := { s with records := { queue with items := [Record.cleanRestart] } }
    (∀ w ∈ new.unsaved, w.due ≠ .lapse) ∧ sameItem s.image new.image .records = false ∧ (∃ w ∈ new.unsaved, .lost ∈ w.keys) ∧
      (s.queueRecord (.bookOpened 1)).records.offered ≠ s.records.offered := by decide +kernel

/-- Lines_follow_their_rules. -/
theorem witness_lines : joining.linesLawful := ⟨by decide +kernel, by decide +kernel⟩

/-- A part of which a lapse has raised the counter to 2, the write still due. -/
def counterDue : State :=
  { State.reset with
    counter := 2
    unsaved := [{ due := .lapse, writes := [{ image := { State.reset.image with counter := 2 }, keys := [.counter] }] }] }

/-- Store_follows_the_working_copies: an item written is the working copy, another is due. -/
theorem witness_store : counterDue.storeCurrent :=
  fun _ => ⟨by decide +kernel, by decide +kernel, by decide +kernel⟩

/-- Store_follows_the_working_copies: the records and the lost count are due together. -/
theorem witness_records_together : trimDue.recordsTogether ∧ ∃ w ∈ trimDue.unsaved, .records ∈ w.keys :=
  ⟨by unfold State.recordsTogether; decide +kernel, by decide +kernel⟩

/-- A part with an answer READY. -/
def answered : State := State.reset.setSlot .feed (.ready .ok [1, 2])

/-- Answers_fit_their_slots, A_read_sends_the_answer_once: an answer is READY and fits. -/
theorem witness_answer : answered.answered .feed .ok [1, 2] ∧ answered.answersFit ∧ answered.phase = .running := by
  refine ⟨rfl, ?_, rfl⟩
  intro p st b h
  cases p <;> simp only [State.answered, answered, State.setSlot, PerPort.set, PerPort.get] at h <;> cases h
  exact ⟨by decide, fun h => absurd rfl h⟩

/-- Settings_stay_in_range, at the least lapse time. -/
theorem witness_settings : ({ Settings.default with lapse := 10 } : Settings).inRange := by
  refine ⟨?_, by decide⟩
  intro n h1 h2
  simp only [Config.settingCount] at h2
  interval_cases n <;> decide

/-- The_law_of_the_book_is_kept: a VALID book that a charge has moved, and a trim gain of 16. -/
theorem witness_book :
    let s : State := { ready with book := ready.book.chargeFlow 25000, settings := { Settings.default with trimGain := 16 } }
    s.phase = .running ∧ s.settings.trimGain ≤ 16 ∧ s.bookLawful ∧ s.book.state ≠ .invalid ∧
      ∃ t : State, exec (.chargeAbort .feed []) s = .next t :=
  ⟨rfl, by decide, ⟨fun _ _ => by decide +kernel, by decide +kernel⟩, by decide +kernel, ⟨_, rfl⟩⟩

/-- A part with the job slots of `ready` and one job at most in the period list keeps the law of the jobs. -/
theorem jobs_lawful (s : State) (hj : s.jobs = ready.jobs) (hp : s.period = [] ∨ s.period = [{ slot := 5, black := 1 }]) :
    s.jobsLawful := by
  refine ⟨?_, by rcases hp with h | h <;> rw [h] <;> decide, by rcases hp with h | h <;> rw [h] <;> decide⟩
  have h : ∀ i n : Nat, (s.job i).named n = true → i = 5 := by
    intro i n hn
    rw [State.job, hj] at hn
    by_cases hi : i < 64
    · interval_cases i <;>
        first
        | rfl
        | exact absurd hn (by simp [ready, State.reset, JobSlot.vacant, JobSlot.named, Config.jobCount, List.replicate])
    · exfalso
      have hl : ready.jobs.length ≤ i := by
        have : ready.jobs.length = 64 := by decide +kernel
        omega
      simp [List.getD, List.getElem?_eq_none hl, JobSlot.named, JobSlot.vacant] at hn
  intro i j n hi hj
  exact (h i n hi).trans (h j n hj).symm

/-- Jobs_and_period_keep_their_form: one job, in the period list. -/
theorem witness_jobs : ({ ready with period := [{ slot := 5, black := 1 }] } : State).jobsLawful :=
  jobs_lawful _ rfl (.inr rfl)

/-- A_stopped_part_takes_nothing. -/
theorem witness_stopped : stoppedPart.phase = .flushed := rfl

/-- Bodies_and_codes_read_back_as_written: every field at the bound of its room. -/
theorem witness_bodies :
    (let a : ReserveArgs := { kind := 255, tandem := 255, f := 255, l := 255, job := 16777215, cls := 255 }
     a.kind < 256 ∧ a.tandem < 256 ∧ a.f < 256 ∧ a.l < 256 ∧ a.job < 16777216 ∧ a.cls < 256) ∧
    (let a : SetHookArgs := { hook := 255, zero := -8388608, span := 65535 }
     a.hook < 256 ∧ -8388608 ≤ a.zero ∧ a.zero ≤ 8388607 ∧ a.span < 65536) ∧
    (∀ q ∈ [({ number := 255, raw := 4294967295 } : TunePair)], q.number < 256 ∧ q.raw < 4294967296) ∧
    Request.ofCode 0x3F = some .reconcileNow := by decide +kernel

/-- Records_have_the_length_they_give. -/
theorem witness_record : Record.cleanRestart.bytes.length < 65536 := by decide

/-- A_corrupted_byte_is_answered_BAD_CHECK, The_engine_refuses_in_order, Dropped_transfers_keep_the_slot. -/
theorem witness_write :
    (∀ p ∈ [Port.craneA, .craneB, .feed, .office], State.reset.takes p = true) ∧ (0x02 : Byte) ≠ 0x01 ∧
    ([5] : List Byte)[0] ≠ 6 ∧ Request.ofCode 0x00 = none ∧ Request.lower.code = 0x13 ∧
    Request.lower.roles.permits .feed = false ∧ Request.lower.roles.permits .craneA = true ∧
    Request.lower.lengthOk 1 = false ∧ Request.lower.lengthOk 0 = true ∧
    (∀ r : Request, r.roles.permits .office = true → r.lengthOk 49 = false) := by
  refine ⟨by decide +kernel, by decide, by decide, by decide, by decide, by decide, by decide, by decide, by decide, ?_⟩
  intro r _
  cases r <;> decide

/-- An_accepted_request_is_durable_and_its_lines_follow. -/
theorem witness_accepted :
    State.reset.store.image.classes.length = ready.classes.length ∧
      State.reset.store.image.jobs.length = ready.jobs.length := by decide +kernel

/-- An_event_leaves_its_writes_due_and_its_lines_follow: an event that changes no item, and one that changes the counter. -/
theorem witness_event :
    (∀ k ∈ storeKeys, sameItem ready.image (ready.endEvent ready .loadScan).image k = true) ∧
      ∃ k ∈ storeKeys, sameItem ready.image (ready.endEvent { ready with counter := 2 } .loadScan).image k = false := by
  decide +kernel

/-- The_number_issued_is_unused: a counter at 65,535 that a live entry carries, and one at 1 that nothing carries. -/
theorem witness_number :
    (let s : State := { working { workEntry with entry := some 65535 } with counter := 65535 }
     1 ≤ s.counter ∧ s.counter ≤ 65535 ∧ s.lanes.length = 16 ∧ s.issued = 1) ∧
    (∀ c : Crane, (State.reset.cranes.get c).entry ≠ some State.reset.counter) ∧
    State.reset.feed.entry ≠ some State.reset.counter ∧
    ∀ ln ∈ State.reset.lanes, ln.holder = .foul → ln.entry ≠ some State.reset.counter :=
  ⟨by decide +kernel, fun c => by cases c <;> decide, by decide, by decide +kernel⟩

/-- Reads_change_nothing_but_the_slot: each clause at a bound. -/
theorem witness_reads :
    ready.takes .craneA = true ∧ ready.takes .office = true ∧ ready.lanes[15]? = some Lane.free ∧
    (2 : Byte).toNat = hookCode .craneB ∧ (0 : Byte).toNat ≠ 1 ∧ ready.classes[15]? = some (ClassEntry.factory 0) ∧
    15 < (16 : Byte).toNat ∧
    (ReadJobArgs.read [1, 63, 0, 0]).selector = 1 ∧ (ReadJobArgs.read [1, 63, 0, 0]).value ≤ 63 ∧
    (ReadJobArgs.read [2, 0x06, 0x10, 0]).selector = 2 ∧ ready.slotOf 4102 = some 5 ∧
    (ReadJobArgs.read [2, 0x3F, 0x42, 0x0F]).value = 999999 ∧ ready.slotOf 999999 = none ∧
    (ReadJobArgs.read [3, 0, 0, 0]).selector = 3 ∧ 63 < (ReadJobArgs.read [1, 64, 0, 0]).value ∧
    (ReadJobArgs.read [2, 0, 0, 0]).value = 0 := by decide +kernel

/-- A RESERVE of kind WORK, of job 4102 with its default class, on lanes 2 to 4, with the tandem mark given. -/
def reserveBody (tandem : Byte) : List Byte := [1, tandem, 2, 4, 0x06, 0x10, 0x00, 255]

/-- The reservation is admissible in a ready part. -/
theorem ready_reservable (m : Byte) (h : m = 0 ∨ m = 1) :
    ready.reservable (ReserveArgs.read (reserveBody m)) .work (some { number := 4102, slot := 5 }) 2 (ClassEntry.factory 0) := by
  have hl : ready.lanes = freeLanes := rfl
  rcases h with rfl | rfl <;>
    exact ⟨rfl, ⟨rfl, by decide +kernel, 5, by decide +kernel, by decide +kernel, rfl, .inr ⟨rfl, by decide +kernel⟩⟩,
      by decide, by decide, fun i _ h2 => by
        rw [hl]
        refine free_lanes i ?_
        simp only [ReserveArgs.read, reserveBody, field, fromLe, List.drop, List.take] at h2
        exact Nat.lt_of_le_of_lt h2 (by decide)⟩

/-- RESERVE_admits_an_entry_of_one_crane, for crane A with no CRANE_B lane and for crane B with no CRANE_A lane. -/
theorem witness_reserve :
    ready.reservable (ReserveArgs.read (reserveBody 0)) .work (some { number := 4102, slot := 5 }) 2
      (ClassEntry.factory 0) ∧ ready.takes .craneA = true ∧ (reserveBody 0).length = 8 ∧ (ready.cranes.get .craneB).state = .idle ∧
      (ReserveArgs.read (reserveBody 0)).tandem = 0 ∧
      ∀ i : Nat, (ready.lanes[i]?).map Lane.holder ≠ some .craneA ∧ (ready.lanes[i]?).map Lane.holder ≠ some .craneB := by
  refine ⟨ready_reservable 0 (.inl rfl), by decide +kernel, rfl, rfl, by decide, fun i => ?_⟩
  have hl : ready.lanes = freeLanes := rfl
  rw [hl]
  by_cases h : i < 16
  · rw [free_lanes i h]; decide
  · rw [List.getElem?_eq_none (by simp [freeLanes, Config.laneCount]; omega)]; decide

/-- A_tandem_RESERVE_waits_for_JOIN: the reservation, the JOIN, a wrong number, a late JOIN and crane A's. -/
theorem witness_join :
    ready.reservable (ReserveArgs.read (reserveBody 1)) .work (some { number := 4102, slot := 5 }) 2
      (ClassEntry.factory 0) ∧ ready.takes .craneA = true ∧ ready.cranes.craneA.state = .idle ∧ ready.cranes.craneB.state = .idle ∧
    (ReserveArgs.read (reserveBody 1)).tandem = 1 ∧ tandem.takes .craneB = true ∧
    tandem.cranes.craneB.state = .reserved ∧ tandem.cranes.craneB.join = some .joinPending ∧
    tandem.cranes.craneB.entry = some (readU16 [7, 0]) ∧ tandem.cranes.craneB.entry ≠ some (readU16 [8, 0]) ∧
    ready.cranes.craneB.state = .idle ∧ tandem.takes .craneA = true :=
  ⟨ready_reservable 1 (.inr rfl), by decide +kernel⟩

/-- A_tandem_RESERVE_waits_for_JOIN: crane B with an entry of its own, and LINKED already. -/
theorem witness_join_refused :
    (let s : State := { ready with cranes := ⟨CraneContext.idle none, withdrawing⟩ }
     s.takes .craneB = true ∧ s.cranes.craneB.state ≠ .idle ∧ s.cranes.craneB.join ≠ some .joinPending) ∧
    (let s := after (exec (.join .craneB [7, 0]) tandem)
     s.takes .craneB = true ∧ s.cranes.craneB.state = .linked ∧ s.cranes.craneB.entry = some (readU16 [7, 0])) := by
  decide +kernel

/-- RESERVE_refuses_held_lanes_before_a_broken_order: a context in use, another mode, a held lane, and crane B within G lanes. -/
theorem witness_reserve_refused :
    ready.resolves (ReserveArgs.read (reserveBody 0)) .work (some { number := 4102, slot := 5 }) 2 (ClassEntry.factory 0) ∧
    (let s : State := { ready with lanes := takeSpan freeLanes { f := 4, l := 5 } .foul 3 }
     s.mode = .run ∧ s.lanes.length = 16 ∧ s.setup.nl ≤ 16 ∧ (s.lanes[4]?).map Lane.holder ≠ some .free) ∧
    (let s : State := { ready with lanes := takeSpan freeLanes { f := 5, l := 6 } .craneB 3 }
     (s.lanes[5]?).map Lane.holder = some .craneB ∧ 5 < 4 + s.setup.g + 1 ∧
       ∀ i ∈ [2, 3, 4], (s.lanes[i]?).map Lane.holder = some .free) ∧
    (let s : State := { ready with lanes := takeSpan freeLanes { f := 0, l := 0 } .craneA 3 }
     (s.lanes[0]?).map Lane.holder = some .craneA ∧ 1 < 0 + s.setup.g + 1) ∧
    (ReserveArgs.read (reserveBody 0)).f ≤ (ReserveArgs.read (reserveBody 0)).l ∧
    (ReserveArgs.read (reserveBody 0)).l < ready.setup.nl ∧
    ((working workEntry).cranes.get .craneA).state ≠ .idle ∧ State.reset.mode ≠ .run :=
  ⟨(ready_reservable 0 (.inl rfl)).2.1, by decide +kernel⟩

/-- RESERVE_refuses_held_lanes_before_a_broken_order: crane B in use at a tandem RESERVE, a job no slot holds, a CLOSING job, and
each field beyond its range. -/
theorem witness_reserve_fields :
    (let s : State := { ready with cranes := ⟨CraneContext.idle none, workEntry⟩ }
     s.cranes.craneA.state = .idle ∧ s.cranes.craneB.state ≠ .idle ∧ (ReserveArgs.read (reserveBody 1)).tandem = 1) ∧
    (ReserveArgs.read (reserveBody 0)).kind = 1 ∧ ready.slotOf 1 = none ∧
    (let s : State := { ready with jobs := ready.jobs.modify 5 fun j => { j with state := .closing } }
     s.slotOf 4102 = some 5 ∧ (s.job 5).state ≠ .opened) ∧
    (ReserveArgs.read [1, 0, 5, 4, 0x06, 0x10, 0, 255]).l < (ReserveArgs.read [1, 0, 5, 4, 0x06, 0x10, 0, 255]).f ∧
    ready.setup.nl ≤ (ReserveArgs.read [1, 0, 2, 12, 0x06, 0x10, 0, 255]).l ∧
    (ReserveArgs.read [0, 0, 2, 4, 0x06, 0x10, 0, 255]).kind = 0 ∧ 3 < (ReserveArgs.read [4, 0, 2, 4, 0x06, 0x10, 0, 255]).kind ∧
    1 < (ReserveArgs.read (reserveBody 2)).tandem ∧
    (let a := ReserveArgs.read [1, 0, 2, 4, 0x06, 0x10, 0, 16]
     15 < a.cls ∧ a.cls ≠ 255) ∧
    (let a := ReserveArgs.read [3, 0, 2, 4, 0x06, 0x10, 0, 0]
     a.kind = 3 ∧ a.job ≠ 0) ∧
    (let a := ReserveArgs.read [3, 0, 2, 4, 0, 0, 0, 255]
     a.kind = 3 ∧ a.cls = 255) := by decide +kernel

/-- The contexts of one crane at work keep their law. -/
theorem working_linked : (working workEntry).tandemLinked := by
  refine ⟨by decide, by decide, by decide, ?_, ?_, ?_⟩ <;> intro c <;> cases c <;> decide

/-- The contexts of a tandem entry that waits for crane B's JOIN keep their law. -/
theorem tandem_linked : tandem.tandemLinked := by
  refine ⟨by decide, by decide, by decide, ?_, ?_, ?_⟩ <;> intro c <;> cases c <;> decide

/-- RELEASE_and_lapse_end_a_reservation: an entry of one crane, and crane A's end of a tandem entry with its lapse timer. -/
theorem witness_release :
    ((working workEntry).tandemLinked ∧ tandem.tandemLinked) ∧ (working workEntry).takes .craneA = true ∧
    ((working workEntry).cranes.get .craneA).state = .reserved ∧ ((working workEntry).cranes.get .craneA).entry = some 7 ∧
    ((working workEntry).cranes.get .craneA).link ≠ .linked ∧ (working workEntry).unsaved = [] ∧
    ((working workEntry).cranes.get .craneA).lapse = some 900 ∧ (tandem.cranes.get .craneA).link = .lead ∧
    (tandem.cranes.get .craneA).state = .reserved ∧ (tandem.cranes.get .craneA).lapse = some 900 :=
  ⟨⟨working_linked, tandem_linked⟩, by decide +kernel⟩

/-- RELEASE_and_lapse_end_a_reservation: a lapse timer in its last tenth of a second, one before it, and crane B's beside crane A's
context IDLE. -/
theorem witness_lapse :
    (let s := working { workEntry with lapse := some 1 }
     (s.cranes.get .craneA).lapse = some 1 ∧ s.phase = .running ∧ s.unsaved = []) ∧
    ((working { workEntry with lapse := some 2 }).cranes.get .craneA).lapse = some 2 ∧
    (let s : State := { ready with cranes := ⟨CraneContext.idle none, { workEntry with lapse := some 0 }⟩ }
     (s.cranes.get .craneB).lapse = some 0 ∧ s.lapsesAt .craneA = false) := by decide +kernel

/-- RELEASE_and_lapse_end_a_reservation: a CLOSING job whose last open dip the reservation is, a linked crane B, an IDLE context
with and without a lapse mark, and another state. -/
theorem witness_release_refused :
    (let s : State := { ready with jobs := ready.jobs.modify 5 fun j => { j with state := .closing } }
     (s.job 5).state = .closing ∧ (s.job 5).openDips ≤ 1 ∧ ∀ e ∈ s.period, e.slot ≠ 5) ∧
    (tandem.cranes.get .craneB).state = .reserved ∧ (tandem.cranes.get .craneB).link = .linked ∧
    tandem.takes Crane.craneB.port = true ∧ (CraneContext.idle (some 7)).state = .idle ∧
    (CraneContext.idle (some 7)).lapseMark ≠ none ∧ (CraneContext.idle none).lapseMark = none ∧
    ((working withdrawing).cranes.get .craneA).state ≠ .idle ∧ ((working withdrawing).cranes.get .craneA).state ≠ .linked ∧
    ((working withdrawing).cranes.get .craneA).state ≠ .reserved := by decide +kernel

/-- CHARGE_takes_the_feed_zone_and_CHARGE_ABORT_frees_it, CHARGE_IN_credits_the_bath. -/
theorem witness_charge :
    ready.takes .feed = true ∧ ready.feed.reserved = false ∧ ready.mode ≠ .stopped ∧ readU16 [1, 0] ≠ 0 ∧
    (ready.lanes[11]?).map Lane.holder = some .free ∧ ready.setup.fzf = 11 ∧ ready.setup.fzl = 11 ∧
    charging.takes .feed = true ∧ charging.feed.reserved = true ∧ charging.feed.entry = some 9 ∧
    charging.feed.lapse = some 900 ∧ charging.unsaved = [] ∧ charging.feed.mass = some 25000 ∧
    (let s : State := { charging with feed := { charging.feed with lapse := some 1 } }
     s.feed.lapse = some 1 ∧ s.lapsesAt .craneA = false ∧ s.lapsesAt .craneB = false) := by decide +kernel

/-- CHARGE_takes_the_feed_zone_and_CHARGE_ABORT_frees_it, CHARGE_IN_credits_the_bath: each refusal. -/
theorem witness_charge_refused :
    charging.feed.reserved = true ∧ ({ ready with mode := .stopped } : State).mode = .stopped ∧ readU16 [0, 0] = 0 ∧
    (let s : State := { ready with lanes := takeSpan freeLanes { f := 11, l := 11 } .foul 3 }
     (s.lanes[11]?).map Lane.holder ≠ some .free ∧ s.setup.fzl < s.lanes.length) ∧
    ready.feed.lapseMark = none ∧ (FeedContext.idle (some 9)).reserved = false ∧
    (FeedContext.idle (some 9)).lapseMark.isSome = true := by decide +kernel

/-- SETUP_KETTLE_and_CLEAR_FOUL_change_the_map: the greatest setup, one beyond it, another mode, a map with FOUL lanes. -/
theorem witness_setup :
    State.reset.takes .office = true ∧ State.reset.mode = .held ∧ (∀ ln ∈ State.reset.lanes, ln.holder = .free) ∧
    SetupArgs.read [16, 3, 0, 15] = { nl := 16, g := 3, fzf := 0, fzl := 15 } ∧
    SetupArgs.read [3, 0, 0, 0] = { nl := 3, g := 0, fzf := 0, fzl := 0 } ∧ ready.mode ≠ .held ∧
    (∃ ln ∈ takeSpan freeLanes { f := 2, l := 4 } .foul 7, ln.holder = .foul ∧ ln.entry = some (readU16 [7, 0])) ∧
    (∀ ln ∈ takeSpan freeLanes { f := 2, l := 4 } .foul 7, ¬(ln.holder = .foul ∧ ln.entry = some (readU16 [8, 0]))) := by
  decide +kernel

/-- LOWER_is_accepted_exactly_while_the_permit_line_is_high: the line high, and low without a temperature. -/
theorem witness_permit :
    ((working workEntry).linesLawful ∧ (lined { working workEntry with bath := BathScanner.restarted }).linesLawful) ∧ (working workEntry).takes .craneA = true ∧ ((working workEntry).cranes.get .craneA).state = .reserved ∧
    ((working workEntry).cranes.get .craneA).link = .alone ∧ ((working workEntry).cranes.get .craneA).join = none ∧
    (working workEntry).lines.permit.get .craneA = true ∧
    (lined { working workEntry with bath := BathScanner.restarted }).lines.permit.get .craneA = false ∧
    (lined { working workEntry with bath := BathScanner.restarted }).mode = .run :=
  ⟨⟨⟨by decide +kernel, by decide +kernel⟩, by decide +kernel, by decide +kernel⟩, by decide +kernel⟩

/-- LOWER_takes_the_black_mass_at_end_1_only: the four rows of R65, and each state. -/
theorem witness_black :
    let h := Hook.restarted Calibration.newPart
    let t := Settings.default
    (Hook.restarted Calibration.defaulted).health = .fault ∧ h.health = .good ∧
    ({ h with steady := some 5 } : Hook).steady = some 5 ∧
    ({ h with held := some 5, heldAge := 300 } : Hook).heldAge ≤ t.holdAge ∧
    t.holdAge < ({ h with held := some 5, heldAge := 301 } : Hook).heldAge ∧ h.steady = none ∧
    (working workEntry).mode = .run ∧ (working workEntry).tempOk = true ∧
    ((working workEntry).cranes.get .craneA).join ≠ some .joinPending ∧
    ((working { workEntry with state := .readySecond }).cranes.get .craneA).state = .readySecond ∧
    ((working { workEntry with link := .lead, join := some .joined }).cranes.get .craneA).link = .lead := by
  decide +kernel

/-- LOWER_takes_the_black_mass_at_end_1_only, SUBMERGED_and_WITHDRAW_move_the_entry: a linked crane B before its JOIN and after
it, an IDLE context with a lapse mark and without, and a state of each kind that may not lower. -/
theorem witness_lower_refused :
    (tandem.cranes.get .craneB).link = .linked ∧ (tandem.cranes.get .craneB).state = .reserved ∧
    (after (exec (.join .craneB (u16 7)) tandem)).cranes.craneB.state = .linked ∧
    (after (exec (.join .craneB (u16 7)) tandem)).cranes.craneB.link = .linked ∧
    (CraneContext.idle (some 7)).state = .idle ∧ (CraneContext.idle (some 7)).lapseMark ≠ none ∧
    (CraneContext.idle (some 7)).link ≠ .linked ∧ (tandem.cranes.get .craneA).state = .reserved ∧
    (tandem.cranes.get .craneA).join = some .joinPending ∧ (tandem.cranes.get .craneA).link ≠ .linked ∧
    ((working withdrawing).cranes.get .craneA).state ≠ .idle ∧ ((working withdrawing).cranes.get .craneA).state ≠ .readySecond ∧
    ((working withdrawing).cranes.get .craneA).state ≠ .reserved := by decide +kernel

/-- SUBMERGED_and_WITHDRAW_move_the_entry: the states they leave, and the time under at the minimum and below it. -/
theorem witness_submerged :
    let k := { ClassEntry.factory 0 with immMin := 1785 }
    ((working { withdrawing with state := .lowering }).cranes.get .craneA).state = .lowering ∧
    ((working { withdrawing with state := .lowering }).cranes.get .craneA).link ≠ .linked ∧
    ((working { withdrawing with state := .immersed, snapshot := some k }).cranes.get .craneA).snapshot = some k ∧
    ((working { withdrawing with state := .immersed }).cranes.get .craneA).submerged = some 45 ∧
    ¬(1830 - 45 < k.immMin) ∧ 1829 - 45 < k.immMin ∧
    ((working withdrawing).cranes.get .craneA).state ≠ .lowering ∧
    ((working withdrawing).cranes.get .craneA).state ≠ .immersed := by decide +kernel

/-- The_immersion_limit_raises_the_withdraw_demand: an expiry one tenth before the limit, a report one tenth earlier, and a second
expiry. -/
theorem witness_limit :
    let near : CraneContext := { withdrawing with snapshot := some { ClassEntry.factory 0 with immLimit := 1906 } }
    let far : CraneContext := { withdrawing with snapshot := some { ClassEntry.factory 0 with immLimit := 1907 } }
    (working near).phase = .running ∧ near.entry = some 7 ∧ near.endNo = some 1 ∧ near.immRunning = true ∧
    near.state = .withdrawing ∧ near.limitTaken = false ∧ 1906 ≤ near.immTimer + 1 ∧ far.immTimer + 1 < 1907 ∧
    ({ withdrawing with limitTaken := true } : CraneContext).limitTaken = true := by decide

/-- CLEAR_of_end_1_turns_a_progressive_entry: WITHDRAWING at end 1, TURNING, and another state. -/
theorem witness_turning :
    (working { withdrawing with kind := some .progressive }).takes .craneA = true ∧
    ((working { withdrawing with kind := some .progressive }).cranes.get .craneA).kind = some .progressive ∧
    ((working { withdrawing with kind := some .progressive }).cranes.get .craneA).endNo = some 1 ∧
    ((working { withdrawing with state := .turning }).cranes.get .craneA).state = .turning ∧
    ((working withdrawing).cranes.get .craneA).state ≠ .turning ∧
    ((working withdrawing).cranes.get .craneA).link ≠ .linked := by decide +kernel

/-- R89, R90: a history value's hold is limited with HOLD_OVER; an initial hold is taken as it stands, also one that only a misdecoded
word can give (log 32). -/
theorem test_hold_limit :
    (let k : ClassEntry := { ClassEntry.factory 0 with last := some 65535, count := 1, holdFactor := 33 }
     k.expectedHold = 65535 ∧ k.holdExceeds = true) ∧
    (let k : ClassEntry := { ClassEntry.factory 0 with initialHold := 70000 }
     k.expectedHold = 70000 ∧ k.holdExceeds = false) := by decide

/-- CLEAR_starts_the_drain: no history, a hold at the limit, and a hold above it. -/
theorem witness_clear :
    (working withdrawing).takes .craneA = true ∧
    ((working withdrawing).cranes.get .craneA).snapshot = some (ClassEntry.factory 0) ∧
    ((working withdrawing).cranes.get .craneA).classNo = some 2 ∧
    ¬(withdrawing.kind = some .progressive ∧ withdrawing.endNo = some 1) ∧
    ({ ClassEntry.factory 0 with last := some 65535, count := 1 } : ClassEntry).rawHold = 65535 ∧
    65535 < ({ ClassEntry.factory 0 with last := some 65535, count := 1, holdFactor := 255 } : ClassEntry).rawHold := by
  decide +kernel

/-- LEAVE_frees_the_lanes_and_an_early_one_accounts_the_dip: DRAINED. -/
theorem witness_leave :
    (working { withdrawing with state := .drained }).takes .craneA = true ∧
    ((working { withdrawing with state := .drained }).cranes.get .craneA).state = .drained ∧
    ((working { withdrawing with state := .drained }).cranes.get .craneA).link ≠ .linked ∧
    ((working { withdrawing with state := .drained }).cranes.get .craneA).entry = some 7 := by decide +kernel

/-- One crane's drain of job 4102 after blanking. -/
theorem draining_drains : (draining runningTimer window8).drains .craneA := ⟨rfl, rfl, by decide, rfl, by decide⟩

/-- An early LEAVE, the timer events and the scan: a drain of job 4102 after blanking. -/
theorem witness_draining :
    (draining runningTimer window8).takes .craneA = true ∧ ((draining runningTimer window8).cranes.get .craneA).entry = some 7 ∧
    (draining runningTimer window8).drainsWork .craneA { number := 4102, slot := 5 } :=
  ⟨by decide +kernel, rfl, draining_drains, .inl rfl, rfl⟩

/-- A part whose crane A drains a tandem entry of job 4102 that it leads, on both hooks. -/
def drainingBoth : State :=
  let x : CraneContext :=
    { withdrawing with state := .draining, link := .lead, join := some .joined, immRunning := false, immTimes := [1905] }
  { draining runningTimer window8 with
    cranes :=
      ⟨x, { CraneContext.idle none with
        entry := some 7, state := .linked, span := some { f := 2, l := 4 }, link := .linked, join := some .joined }⟩
    watches := ⟨{ window8 with bothHooks := true }, Watch.inactive⟩ }

/-- The same statements: a tandem entry, and a CLOSING job whose last dip the drain is and which has no period-list entry, since the
dip has no black mass. -/
theorem witness_draining_both :
    drainingBoth.drainsWork .craneA { number := 4102, slot := 5 } ∧ (drainingBoth.cranes.get .craneA).link = .lead ∧
    drainingBoth.takes .craneA = true ∧
    (let s : State := { draining runningTimer window8 with
      jobs := ready.jobs.modify 5 fun j => { j with state := .closing } }
     (s.job 5).state = .closing ∧ (s.job 5).openDips ≤ 1 ∧
       ∀ e ∈ creditedPeriod s.period 5 none, e.slot ≠ 5) :=
  ⟨⟨⟨rfl, rfl, by decide, rfl, by decide⟩, .inl rfl, rfl⟩, rfl, by decide +kernel, by decide +kernel⟩

/-- DROPPED_turns_the_lanes_FOUL: WITHDRAWING, with a job whose slot is OPEN. -/
theorem witness_dropped :
    withdrawing.span = some { f := 2, l := 4 } ∧ withdrawing.job = some { number := 4102, slot := 5 } ∧
    ((working withdrawing).job 5).state = .opened ∧
    (let y : JobSlot := { JobSlot.vacant .closing with openDips := 1 }
     y.state = .closing ∧ y.openDips ≤ 1) ∧
    ({ withdrawing with kind := some .dross, job := none } : CraneContext).job = none := by decide +kernel

/-- CLEAR_starts_the_drain, LEAVE_frees_the_lanes_and_an_early_one_accounts_the_dip, DROPPED_turns_the_lanes_FOUL: states in which
each is refused, an entry not in a tandem. -/
theorem witness_moves_refused :
    (∀ st ∈ [EntryState.idle, .reserved, .draining, .drained],
      let x := (working { withdrawing with state := st }).cranes.get .craneA
      x.link ≠ .linked ∧ x.state ≠ .withdrawing ∧ x.state ≠ .lowering ∧ x.state ≠ .immersed) ∧
    (∀ st ∈ [EntryState.idle, .reserved, .lowering, .immersed, .withdrawing, .turning, .readySecond],
      let x := (working { withdrawing with state := st }).cranes.get .craneA
      x.link ≠ .linked ∧ x.state ≠ .drained ∧ x.state ≠ .draining) ∧
    (working { withdrawing with state := .draining }).takes .craneA = true := by decide +kernel

/-- A_tick_counts_and_climbs, A_tick_that_meets_the_compare_ends_the_drain: counters at the bounds of each clause. -/
theorem witness_tick :
    DrainTimer.idle.state ≠ .running ∧ runningTimer.counter < 1023 ∧ ¬(runningTimer.compare ≤ runningTimer.counter + 1) ∧
    (let t := { runningTimer with compare := 101, inBlanking := true }
     t.compare ≤ t.counter + 1 ∧ t.mode = some .either ∧ t.timedPending = false ∧ t.inBlanking = true) ∧
    (let t := { runningTimer with counter := 1023, range := 6, compare := 1025 }
     t.counter = 1023 ∧ t.range < 7 ∧ ¬((t.compare + 1) / 2 ≤ 512)) ∧
    (let t := { runningTimer with compare := 101 }
     t.compare ≤ t.counter + 1 ∧ t.inBlanking = false) ∧
    (let t := { runningTimer with counter := 1023, range := 6, compare := 1024 }
     t.counter = 1023 ∧ t.range < 7 ∧ (t.compare + 1) / 2 ≤ 512 ∧ t.mode = some .either ∧ t.timedPending = false) ∧
    (let t := { runningTimer with counter := 1023, range := 7 }
     t.counter = 1023 ∧ t.range = 7 ∧ t.state = .running) := by decide

/-- The_reported_timer_events_take_their_effect: a watch in BLANKING, a compare in reach, in blanking and after it. -/
theorem witness_timer_events :
    ({ window8 with phase := .blanking } : Watch).phase = .blanking ∧ runningTimer.compare ≤ 1023 ∧
    runningTimer.timedPending = false ∧ runningTimer.inBlanking = false ∧
    ({ runningTimer with inBlanking := true } : DrainTimer).inBlanking = true := by decide

/-- A_flat_window_ends_the_drain_sensed: the scan of 13,610 after the window of section 3.6. -/
theorem witness_sensed :
    let s := draining runningTimer window8
    let h := (s.hooks.get .craneA).scan s.settings (reading24 13610)
    (s.watches.get .craneA).phase = .after ∧ (s.watches.get .craneA).condition = .opened ∧
    (s.watches.get .craneB).phase = .inactive ∧ (s.timers.get .craneA).sensed = none ∧ h.health = .good ∧
    watchValue (s.scannedHooks (reading24 13610) (reading24 0) .craneA) = some 13610 ∧
    ((window8.window ++ [13610]).drop (window8.window.length + 1 - window8.width)).length = window8.width ∧
    (let w := (window8.window ++ [13610]).drop (window8.window.length + 1 - window8.width)
     roundDiv (w.take 4).sum 4 - roundDiv (w.drop 4).sum 4 ≤ window8.threshold) := by decide +kernel

/-- No lapse timer runs in a draining part. -/
theorem draining_noLapse : (draining runningTimer window8).noLapse := fun c => by cases c <;> decide +kernel

/-- A_flat_window_ends_the_drain_sensed: the same scan in TIMED mode, which the drain runs through. -/
theorem witness_sensed_timed :
    let s := draining { runningTimer with mode := some .timed } window8
    s.drains .craneA ∧ s.noLapse ∧ (s.timers.get .craneA).mode = some .timed ∧ (s.timers.get .craneA).sensed = none ∧
      (s.timers.get .craneA).timedPending = false ∧ s.unsaved = [] :=
  ⟨⟨rfl, rfl, by decide, rfl, by decide⟩, fun c => by cases c <;> decide +kernel, rfl, rfl, rfl, by decide +kernel⟩

/-- A_flat_window_ends_the_drain_sensed: a tandem entry, on the sum of two hooks of 6,805 each; and a timed end that the first scan
after blanking takes. -/
theorem witness_sensed_others :
    (let h : Hook := { Hook.restarted Calibration.newPart with ring := [{ raw := 6805, mass := some 6805 }] }
     newestMass [h, h] = some 13610) ∧
    (let t := { runningTimer with timedPending := true, inBlanking := false }
     t.timedPending = true ∧ t.mode = some .either) ∧
    (let w := { window8 with window := [], afterScans := 0 }
     w.phase = .after ∧ w.afterScans = 0 ∧ w.window = [] ∧ 2 ≤ w.width) := by decide +kernel

/-- A part whose two cranes each drain an entry of their own in EITHER mode, the runs of OVER samples of hook B being given. -/
def drainingApart (overRun : Nat) : State :=
  let s := draining runningTimer window8
  { s with
    cranes := ⟨s.cranes.craneA, { s.cranes.craneA with entry := some 8 }⟩
    timers := ⟨runningTimer, runningTimer⟩
    watches := ⟨window8, window8⟩
    hooks := { s.hooks with craneB := { s.hooks.craneB with overRun := overRun } } }

/-- A_flat_window_ends_the_drain_sensed: a scan that ends both drains; and one that ends crane A's while crane B drains on, its hook
entering FAULT at this scan. -/
theorem witness_sensed_apart :
    (∀ n : Nat, (drainingApart n).noLapse ∧ ∀ c : Crane, (drainingApart n).drains c) ∧
    (let s := drainingApart 0
     ∀ c : Crane, scanEnds (s.watches.get c) (s.timers.get c) (s.scannedHooks (reading24 13610) (reading24 13610) c)) ∧
    (let s := drainingApart 4
     let used := s.scannedHooks (reading24 13610) { raw := 0, overload := true }
     scanEnds (s.watches.get .craneA) (s.timers.get .craneA) (used .craneA) ∧
       ¬scanEnds (s.watches.get .craneB) (s.timers.get .craneB) (used .craneB) ∧
       ((s.hooks.get .craneB).scan s.settings { raw := 0, overload := true }).health = .fault) := by
  refine ⟨fun n => ⟨fun c => by cases c <;> rfl, fun c => by cases c <;> exact ⟨rfl, rfl, (by decide : TandemLink.alone ≠ .linked), rfl, rfl⟩⟩,
    fun c => ?_, ?_⟩
  · cases c <;> (unfold scanEnds; decide +kernel)
  · unfold scanEnds; decide +kernel

/-- A part whose crane A drains a DROSS entry. -/
def drossing : State :=
  { draining runningTimer window8 with
    cranes :=
      ⟨{ withdrawing with state := .draining, kind := some .dross, job := none, immRunning := false, immTimes := [1905] },
        CraneContext.idle none⟩ }

/-- A_dross_grab_is_booked_and_shared: a grab with both masses, and one without a black mass; a tandem one; and a CLOSING job without
an open dip. -/
theorem witness_dross :
    drossing.drainsDross .craneA ∧ (drossing.cranes.get .craneA).black = some 12840 ∧
    timedDrained (drossing.entryHooks .craneA) (drossing.watches.get .craneA).tail = some 13612 ∧
    creditedMass (some 12840) (some 13612) ≠ none ∧ creditedMass none (some 13612) = none ∧
    (let s : State := { ready with jobs := ready.jobs.modify 5 fun j => { j with state := .closing, openDips := 0 } }
     (s.job 5).state = .closing ∧ (s.job 5).openDips = 0) :=
  ⟨⟨⟨rfl, rfl, by decide, rfl, by decide⟩, rfl, jobs_lawful _ rfl (.inl rfl)⟩, rfl, by decide +kernel, by decide, by decide,
    by decide +kernel⟩

/-- Durations_compares_and_lessons: a counter at 1023, a met compare, and equal and unequal editions. -/
theorem witness_lessons :
    ({ runningTimer with counter := 1023 } : DrainTimer).counter = 1023 ∧
    (let t := { runningTimer with counter := 300 }
     t.compare = compareOf 1200 t.range ∧ t.compare ≤ t.counter) ∧
    ready.classes[15]? = some (ClassEntry.factory 0) ∧ (ClassEntry.factory 0).edition ≠ (ClassEntry.factory 1).edition := by
  decide +kernel

/-- ZERO_HOOK_and_SET_HOOK_calibrate_an_idle_hook: a steady hook with S samples, one with fewer, and SET HOOK's fields. -/
theorem witness_hooks :
    let full : Hook := { Hook.restarted Calibration.newPart with
      ring := List.replicate 8 { raw := 5, mass := some 5 }, steady := some 5 }
    let few : Hook := { full with ring := List.replicate 7 { raw := 5, mass := some 5 } }
    ready.takes .craneA = true ∧ (ready.cranes.get .craneA).state = .idle ∧ full.steady.isSome = true ∧
    ready.settings.steadyCount ≤ full.ring.length ∧ few.ring.length < ready.settings.steadyCount ∧
    (Hook.restarted Calibration.newPart).steady = none ∧ ((working workEntry).cranes.get .craneA).state ≠ .idle ∧
    SetHookArgs.read [1, 0, 0, 0x80, 1, 0] = { hook := 1, zero := -8388608, span := 1 } ∧
    (SetHookArgs.read [1, 0, 0, 0, 0, 0]).span = 0 ∧ (SetHookArgs.read [3, 0, 0, 0, 1, 0]).hook = 3 := by decide +kernel

/-- A_load_scan_weighs_a_hook: a sample at the greatest mass, and one above it. -/
theorem witness_weigh :
    let cal : Calibration := { zero := 0, span := 65535, calibrated := true }
    1 ≤ Settings.default.steadyCount ∧ cal.mass 600009 = 600000 ∧ 600000 < cal.mass 600010 ∧
    (Hook.restarted Calibration.defaulted).health = .fault ∧ (Hook.restarted Calibration.newPart).health = .good := by
  decide +kernel

/-- A part whose two cranes drain in TIMED mode, crane A's watch after blanking and crane B's in it. -/
def drainingTwo : State :=
  let t := { runningTimer with mode := some DrainMode.timed }
  { draining t window8 with timers := ⟨t, t⟩, watches := ⟨window8, { window8 with phase := .blanking, remaining := 1 }⟩ }

/-- A_load_scan_without_a_drain_weighs_and_counts: no watch, and two that a scan moves on, whatever it brings. -/
theorem witness_scan :
    (ready.phase = .running ∧ ready.unsaved = [] ∧ ready.noLapse ∧
      ∀ (c : Crane) (used : List (Hook × Hook)), ¬scanEnds (ready.watches.get c) (ready.timers.get c) used) ∧
    drainingTwo.phase = .running ∧ drainingTwo.unsaved = [] ∧ drainingTwo.noLapse ∧
      ∀ (c : Crane) (used : List (Hook × Hook)), ¬scanEnds (drainingTwo.watches.get c) (drainingTwo.timers.get c) used := by
  refine ⟨⟨rfl, by decide, fun c => by cases c <;> decide +kernel, ?_⟩, rfl, by decide +kernel,
    fun c => by cases c <;> decide +kernel, ?_⟩
  · rintro c used ⟨h, -⟩
    cases c <;> exact absurd h (by decide)
  · rintro c used ⟨-, -, ⟨-, -, h⟩ | ⟨h, -⟩⟩ <;> cases c <;> exact absurd h (by decide)

/-- The same statement, whose watch lemmas' cases these are: an immersion timer one tenth below its limit; a watch in BLANKING at
its last scan; a usable value and an OVER scan after blanking; and a hook of the watch that enters FAULT at that scan. -/
theorem witness_scan_others :
    let lost : Reading := { raw := 0, overload := true }
    let tired : Hook := { Hook.restarted Calibration.newPart with overRun := 4 }
    (let x : CraneContext := { withdrawing with snapshot := some { ClassEntry.factory 0 with immLimit := 1906 } }
     x.immRunning = true ∧ x.limitTaken = false ∧ min (x.immTimer + 1) 65535 = 1906) ∧
    ({ window8 with phase := .blanking, remaining := 1 } : Watch).phase = .blanking ∧
    window8.phase = .after ∧ window8.condition = .opened ∧
    (let used := [(Hook.restarted Calibration.newPart, (Hook.restarted Calibration.newPart).scan Settings.default (reading24 13610))]
     watchValue used = some 13610 ∧ (window8.scannedBy used).lastDrop = some 8 ∧ window8.sensesAt used = true) ∧
    (((Hook.restarted Calibration.newPart).scan Settings.default lost).ring.getLast?).bind Sample.mass = none ∧
    ((Hook.restarted Calibration.newPart).scan Settings.default lost).health = .good ∧
    tired.health = .good ∧ (tired.scan Settings.default lost).health = .fault := by decide +kernel

/-- Flows_book_their_totals_and_clamp_M: a debit of all of M and of one more, a credit to the greatest M and past it. -/
theorem witness_flows :
    let b := { Book.blank with mass := 100 }
    (100 : Nat) ≤ b.mass ∧ b.mass < 101 ∧ 140737488355327 < (140737488355227 : Nat) + 101 ∧
      ¬((b.adjusted - ((101 : Int) - b.mass)) < -140737488355327) ∧
      ((-140737488355327 : Int) - ((101 : Int) - b.mass)) < -140737488355327 ∧ b.mass + 4294967195 ≤ 4294967295 ∧ 4294967295 < b.mass + 4294967196 ∧
      b.charged + 4294967196 ≤ 140737488355327 := by decide

/-- Book_requests_skim_rebase_open_and_ask_to_reconcile. -/
theorem witness_book_requests :
    ready.takes .feed = true ∧ readU16 [0, 0] = 0 ∧ readU16 [0x20, 0x4E] = 20000 ∧
    (let s : State := { ready with recon := { ready.recon with gauge := some 3099000, judgedQuiet := true } }
     s.recon.gauge = some 3099000 ∧ s.takes .office = true ∧ s.recon.judgedQuiet = true ∧ s.still = true) ∧
    (let b := { ready.book with adjusted := 140737488354327 }
     b.adjusted + ((b.mass : Int) - 3099000) = 140737488355327 ∧
       140737488355327 < b.adjusted + ((b.mass : Int) - 3098999)) ∧
    ready.recon.gauge = none ∧ ready.recon.judgedQuiet = false := by decide +kernel

/-- A_bath_scan_reconciles_a_quiet_kettle_only: a quiet part with 15 levels before the scan. -/
theorem witness_bath :
    let s : State := { ready with recon := { ready.recon with quiet := some 300, quietLevels := 15 } }
    s.scansBath (reading24 298400) (reading24 288000) 18650 4500 ∧ s.still = true ∧ s.recon.quiet = some 300 ∧
      s.settings.quietTime * 10 ≤ 300 ∧ s.settings.tempLow ≤ 4500 ∧ 4500 ≤ s.settings.tempHigh ∧
      15 ≤ s.recon.quietLevels ∧ s.settings.trimGain ≤ 16 ∧ s.recon.since = none :=
  ⟨⟨rfl, rfl, rfl, rfl, rfl, rfl, by decide, by decide, by decide +kernel, by decide +kernel⟩, by decide +kernel, rfl,
    by decide, by decide, by decide, by decide, by decide, rfl⟩

/-- A_bath_scan_reconciles_a_quiet_kettle_only: quiet scans that do not reconcile, one level short, or within the interval; and a
still kettle one tenth of a second short of quiet. -/
theorem witness_bath_quiet :
    let s := fun (q n : Nat) (since : Option Nat) =>
      lined { ready with recon := { ready.recon with quiet := some q, quietLevels := n, since := since } }
    (s 300 14 none).linesLawful ∧ (s 300 14 none).recon.quietLevels < 15 ∧ (s 300 14 none).bath.level.invalidRun < 4 ∧
      (s 300 16 (some 17999)).recon.pending = false ∧ 17999 < (s 300 16 (some 17999)).settings.interval * 600 ∧
      (∀ q ∈ (s 299 0 none).recon.quiet, q < (s 299 0 none).settings.quietTime * 10) ∧ (s 300 14 none).still = true :=
  ⟨⟨by decide +kernel, by decide +kernel⟩, by decide +kernel⟩

/-- A_bath_scan_reconciles_a_quiet_kettle_only: still kettles with the quiet timer at Q whose temperature is not OK after a scan with
an invalid temperature: none stored, the age passing 60, the channel in FAULT and entering it, and a temperature above the window;
and one whose age reaches 60 only. -/
theorem witness_bath_not_ok :
    let s := fun b : BathScanner => lined { ready with bath := b, recon := { ready.recon with quiet := some 300 } }
    let stored := ready.bath
    (∀ b ∈ [{ stored with stored := none }, { stored with age := 60 },
        { stored with temp := { health := .fault, invalidRun := 9, validRun := 0 } },
        { stored with temp := { health := .good, invalidRun := 4, validRun := 0 } }, { stored with stored := some 4601 }],
      (s b).phase = .running ∧ (s b).lines = (s b).lineLevels ∧ (s b).lines.feed = (s b).feedLevel ∧ (s b).still = true ∧
        (s b).recon.quiet = some 300 ∧
        (after (exec (.bathScan (reading24 298400) { raw := 0, overload := true } []) (s b))).tempOk = false) ∧
    (after (exec (.bathScan (reading24 298400) { raw := 0, overload := true } []) (s { stored with age := 59 }))).tempOk =
      true := by decide +kernel

/-- A_bath_scan_reconciles_a_quiet_kettle_only: a working kettle. -/
theorem witness_bath_working :
    (working withdrawing).scansBath (reading24 298400) (reading24 288000) 18650 4500 ∧
      (working withdrawing).still = false ∧ (working withdrawing).linesLawful :=
  ⟨⟨rfl, rfl, rfl, rfl, rfl, rfl, by decide, by decide, by decide +kernel, by decide +kernel⟩, by decide +kernel,
    by decide +kernel, by decide +kernel⟩

/-- A_bath_scan_reconciles_a_quiet_kettle_only: the greatest level and the first invalid ones on either side, and channels one scan
before each change of health. -/
theorem witness_bath_invalid :
    let scan := fun raw : Int => (raw - Settings.default.levelZero) * Settings.default.levelSpan / 65536
    scan 640000 = 40000 ∧ 40000 < scan 640016 ∧ scan 0 = 0 ∧ scan (-1) < 0 ∧
    (let c : Channel := { health := .good, invalidRun := 4, validRun := 0 }
     c.health = .good ∧ 5 ≤ min (c.invalidRun + 1) 65535) ∧
    (let c : Channel := { health := .fault, invalidRun := 0, validRun := 19 }
     c.health = .fault ∧ 20 ≤ min (c.validRun + 1) 65535) := by decide

/-- Shares_sum_exactly_to_the_dross_zinc: two lists of one shape. -/
theorem witness_shares :
    (∃ e ∈ ([⟨0, 18450⟩, ⟨1, 1⟩] : List PeriodEntry), 0 < e.black) ∧ (∃ e ∈ ([⟨0, 0⟩, ⟨1, 1⟩] : List PeriodEntry), 0 < e.black) ∧
    ([⟨7, 18450⟩, ⟨2, 1⟩] : List PeriodEntry).map PeriodEntry.black =
      ([⟨0, 18450⟩, ⟨1, 1⟩] : List PeriodEntry).map PeriodEntry.black := by decide

/-- Job_requests_open_close_and_remove: fields at their bounds, and slots of each state. -/
theorem witness_job_requests :
    ready.takes .office = true ∧ JobArgs.read [0x3F, 0x42, 0x0F, 15] = { job := 999999, other := 15 } ∧
    ready.slotOf 999999 = none ∧ (ready.job 0).state = .free ∧ ready.slotOf 4102 = some 5 ∧
    (ready.job 5).number = some 4102 ∧ (ready.job 5).state = .opened ∧ 0 < (ready.job 5).openDips ∧
    (∀ e ∈ ready.period, e.slot ≠ 5) ∧
    (let s : State := { ready with jobs := ready.jobs.modify 5 (fun j => { j with openDips := 0, state := .closing })
                                   period := [{ slot := 5, black := 1 }] }
     (s.job 5).openDips = 0 ∧ (s.job 5).state = .closing ∧ ∃ e ∈ s.period, e.slot = 5) ∧
    (JobArgs.read [6, 16, 0, 3]).other = 3 ∧ (JobArgs.read [0, 0, 0, 1]).job = 0 ∧ ready.slotOf 4103 = none ∧
    (let s : State := { ready with jobs := ready.jobs.modify 5 fun j => { j with state := .closed } }
     s.slotOf 4102 = some 5 ∧ (s.job 5).state = .closed) ∧
    63 < (64 : Byte).toNat ∧ (0 : Byte).toNat ≤ 63 ∧ (ready.job 0).state ≠ .closed ∧
    (let s : State := { ready with jobs := ready.jobs.set 63 (JobSlot.vacant .damaged) }
     (s.job 63).state = .damaged) := by decide +kernel

/-- RESUME_HOLD_and_the_stop_input_move_the_mode: each mode, and an UNCONFIRMED setup. -/
theorem witness_modes :
    State.reset.mode = .held ∧ State.reset.setup.confirmed = true ∧ ready.mode = .run ∧
    ({ ready with mode := .stopped } : State).mode = .stopped ∧
    ({ State.reset with setup := Setup.default false } : State).setup.confirmed = false := by decide

/-- TUNE_KETTLE_sets_its_list_or_nothing: a list that fits, and one with a number twice. -/
theorem witness_tune :
    let body := TunePair.bytesAll [{ number := 13, raw := 4600 }, { number := 18, raw := 4286578688 }]
    Request.tuneKettle.lengthOk body.length = true ∧
    (∀ p ∈ TunePair.readAll body, 1 ≤ p.number ∧ p.number ≤ 21 ∧ (settingRange p.number).1 ≤ p.value ∧
      p.value ≤ (settingRange p.number).2) ∧
    ((TunePair.readAll body).map TunePair.number).Nodup ∧
    ¬(([{ number := 1, raw := 90 }, { number := 1, raw := 90 }] : List TunePair).map TunePair.number).Nodup := by
  decide +kernel

/-- SET_CLASS_redefines_a_class: fields at their bounds, and an odd window. -/
theorem witness_set_class :
    let a := SetClassArgs.read [15, 1, 0, 1, 0, 3, 0, 2, 0, 0, 255, 32, 255, 255]
    a.number ≤ 15 ∧ 1 ≤ a.immLimit ∧ a.immMin ≤ a.immLimit ∧ (1 ≤ a.drainMode ∧ a.drainMode ≤ 3) ∧
    (a.basis = 1 ∨ a.basis = 2) ∧ 4 ≤ a.window ∧ a.window ≤ 32 ∧ a.window % 2 = 0 ∧
    ready.classes[a.number]? = some (ClassEntry.factory 0) ∧
    ¬((SetClassArgs.read [15, 1, 0, 1, 0, 3, 0, 2, 0, 0, 255, 31, 255, 255]).window % 2 = 0) := by decide +kernel

/-- Queues_join_at_the_tail_and_leave_at_the_head: queues with room and without, and the counts at their bounds. -/
theorem witness_queues_full :
    (List.replicate 31 Record.cleanRestart).length < 32 ∧ 32 ≤ (List.replicate 32 Record.cleanRestart).length ∧
    (List.replicate 15 Notice.resumed).length < 16 ∧ 16 ≤ (List.replicate 16 Notice.resumed).length ∧
    (0 : Byte).toNat = 0 ∧ 8 < (9 : Byte).toNat ∧ 1 ≤ (8 : Byte).toNat ∧ (8 : Byte).toNat ≤ 8 := by decide

/-- A_flush_and_a_restart_keep_every_durable_state: the reset state may be flushed and restarted. -/
theorem witness_restorable : State.reset.phase = .running ∧ State.reset.storeCurrent ∧ State.reset.restorable :=
  ⟨rfl, fun _ => ⟨by decide +kernel, by decide +kernel, by decide +kernel⟩,
    ⟨rfl, fun p => by cases p <;> rfl, by decide +kernel, by decide +kernel, by decide, by decide, by decide,
      by decide +kernel, by decide, by decide +kernel, rfl⟩⟩

/-- The same statement: a part in the middle of a withdrawal, with a write still due. -/
def midway : State :=
  let s := working withdrawing
  { s with
    store := { image := { s.image with counter := 7 }, flips := [] }
    unsaved := [{ due := .loadScan, writes := [{ image := s.image, keys := [.counter] }] }] }

theorem witness_restorable_midway : midway.phase = .running ∧ midway.storeCurrent ∧ midway.restorable :=
  ⟨rfl, fun _ => ⟨by decide +kernel, by decide +kernel, by decide +kernel⟩,
    ⟨rfl, fun p => by cases p <;> rfl, by decide +kernel, by decide +kernel, by decide, by decide, by decide,
      by decide +kernel, by decide, by decide +kernel, rfl⟩⟩

/-- The same statement: a SKIM that the flush finds PENDING in that part. -/
theorem witness_pending :
    midway.store.flips = [] ∧ (∀ p : Port, (midway.engines.get p).slot.isPending = false) ∧
    Request.skim.roles.permits .feed = true ∧ Request.skim.lengthOk [100, 0].length = true ∧
    (midway.writeRequest .feed .skim [100, 0]).restorable := by
  refine ⟨rfl, fun p => ?_, rfl, rfl, ?_, fun p => ?_, ?_⟩
  case refine_2 => decide +kernel
  case refine_4 => decide +kernel
  all_goals cases p <;> decide +kernel

/-- The same statement: the stop input low at a restart, and the cuts on either side of the last item. -/
theorem witness_restart :
    (let s : State := { stoppedPart with inputs := { stoppedPart.inputs with stopLow := true } }
     s.phase = .flushed ∧ s.inputs.resetAsserted = false ∧ s.inputs.stopLow = true) ∧
    stoppedPart.store.flips = [] ∧ restartItems.length = 157 := by decide +kernel

/-- A store with a FOUL item, a record and a live entry. -/
def fullImage : StoreImage :=
  { State.reset.image with
    foul := [{ entry := 3, f := 0, l := 1 }], live := [{ entry := 7, holders := .craneA }]
    records := { items := [Record.cleanRestart], lost := 0, offered := 1 } }

/-- Errors_and_a_collapse_reach_the_items_they_strike: disturbances of one and of two bits, and an item of every region. -/
theorem witness_errors :
    (let s : State := { stoppedPart with store := { image := fullImage, flips := [] } }
     s.phase = .flushed ∧ s.store.flips = [] ∧ s.inputs.resetAsserted = false ∧ s.inputs.stopLow = false) ∧
    errorCount 0x4000000000 = 1 ∧ errorCount 3 = 2 ∧ fullImage.fits ∧
    (∀ k ∈ [StoreKey.setup, .setting 21, .hook .craneB, .classFields 15, .classEdition 15, .job 63, .period, .book, .foul,
        .counter, .live, .lost, .records], fullImage.names { key := k, pos := 0, word := 0, bits := 3 }) := by
  refine ⟨by decide +kernel, by decide +kernel, by decide +kernel, ?_, ?_⟩
  · exact ⟨by decide +kernel, by decide +kernel, by decide, by decide, by decide, by decide, by decide, by decide⟩
  · intro k hk
    simp only [List.mem_cons, List.not_mem_nil, or_false] at hk
    rcases hk with rfl | rfl | rfl | rfl | rfl | rfl | rfl | rfl | rfl | rfl | rfl | rfl | rfl <;>
      simp [StoreImage.names, fullImage]

/-- The same statement, of which State.reset also meets the law of the store (witness_restorable): the scrub at the first word of
the book, sound, with one bit in error, and with two. -/
theorem witness_scrub :
    wordAt storeBlocks 843 = some (.book, 0, 0) ∧ State.reset.phase = .running ∧ State.reset.unsaved = [] ∧
    State.reset.store.image.classes.length = State.reset.classes.length ∧
    State.reset.store.image.jobs.length = State.reset.jobs.length ∧
    errorCount 1 = 1 ∧ errorCount 3 = 2 ∧ decodeWord 1 = .corrected ∧ wordAt storeBlocks 0 = some (.setup, 0, 0) := by decide +kernel

/-- The same statement: a flush that has the book and then two records to write, or a slot whose dips alone change, and a part that
runs with no request PENDING. -/
theorem witness_collapse :
    (let queued : RecordQueue := { items := stoppedPart.store.image.records.items ++ List.replicate 2 Record.cleanRestart, lost := 0, offered := 3 }
     let x : StepWrites := { image := { fullImage with book := ready.book, records := queued }, keys := [.book, .records] }
     let y : StepWrites :=
       { image := { fullImage with jobs := fullImage.jobs.set 0 { JobSlot.vacant .free with dipCount := 1 } }, keys := [.job 0] }
     let s : State :=
       { stoppedPart with
         flush := some { store := stoppedPart.store, steps := [[x, y]], last := { image := fullImage, keys := [.live] } } }
     s.phase = .flushed ∧ 2 < (x.keys ++ y.keys).length ∧
       (∀ z ∈ [x, y], z.image.classes.length = stoppedPart.store.image.classes.length ∧
         z.image.jobs.length = stoppedPart.store.image.jobs.length) ∧
       sameItem x.image stoppedPart.store.image .book = false ∧
       x.image.records.items = stoppedPart.store.image.records.items ++ [Record.cleanRestart, Record.cleanRestart] ∧
       (stoppedPart.store.image.jobs[0]?).map JobSlot.state = (y.image.jobs[0]?).map JobSlot.state ∧
       (stoppedPart.store.image.jobs[0]?).map JobSlot.number = (y.image.jobs[0]?).map JobSlot.number ∧
       (stoppedPart.store.image.jobs[0]?).map JobSlot.defaultClass = (y.image.jobs[0]?).map JobSlot.defaultClass) ∧
    stoppedPart.flush = none ∧ State.reset.phase = .running ∧
    ∀ p ∈ [Port.craneA, .craneB, .feed, .office], (State.reset.engines.get p).slot.isPending = false := by decide +kernel

end Sys2Proof.Tests
end

namespace Sys2Proof.Machine

/-! ### Operations that leave the lane map and the kettle setup alone -/

section MapFrames

variable (s : State) (c : Crane) (x : CraneContext)

@[simp] theorem State.endEvent_map (new : State) (d : Deadline) :
    (s.endEvent new d).lanes = new.lanes ∧ (s.endEvent new d).setup = new.setup := by
  rw [State.endEvent_frame]; exact ⟨rfl, rfl⟩

@[simp] theorem State.endRequest_map (new : State) :
    (s.endRequest new).lanes = new.lanes ∧ (s.endRequest new).setup = new.setup := by
  rw [State.endRequest_frame]; exact ⟨rfl, rfl⟩

@[simp] theorem State.announceAll_map (closed : List Nat) :
    (s.announceAll closed).lanes = s.lanes ∧ (s.announceAll closed).setup = s.setup := by
  induction closed generalizing s with
  | nil => exact ⟨rfl, rfl⟩
  | cons i rest ih => exact ih (s.announceClosed i)

@[simp] theorem State.closeSlot_map (i : Nat) :
    (s.closeSlot i).lanes = s.lanes ∧ (s.closeSlot i).setup = s.setup := ⟨rfl, rfl⟩

@[simp] theorem State.runCloseTest_map (i : Nat) :
    (s.runCloseTest i).1.lanes = s.lanes ∧ (s.runCloseTest i).1.setup = s.setup := by
  unfold State.runCloseTest
  split <;> simp

@[simp] theorem State.fallOpenDip_map (i : Nat) :
    (s.fallOpenDip i).1.lanes = s.lanes ∧ (s.fallOpenDip i).1.setup = s.setup := by
  simp [State.fallOpenDip]

@[simp] theorem State.endDip_map (job : Option JobRef) :
    (s.endDip job).lanes = s.lanes ∧ (s.endDip job).setup = s.setup := by
  unfold State.endDip
  split <;> simp

@[simp] theorem State.creditEntry_map (k : Closing) :
    (s.creditEntry x k).1.lanes = s.lanes ∧ (s.creditEntry x k).1.setup = s.setup := by
  unfold State.creditEntry
  split <;> simp [State.creditJob]

/-- A fold of operations that each leave the map leaves it. -/
theorem foldl_map {α : Type} (f : State → α → State)
    (hf : ∀ t a, (f t a).lanes = t.lanes ∧ (f t a).setup = t.setup) (xs : List α) :
    (xs.foldl f s).lanes = s.lanes ∧ (xs.foldl f s).setup = s.setup := by
  induction xs generalizing s with
  | nil => exact ⟨rfl, rfl⟩
  | cons a rest ih => simp [ih, hf]

@[simp] theorem State.allocate_map (zc : Nat) :
    (s.allocate zc).1.lanes = s.lanes ∧ (s.allocate zc).1.setup = s.setup := by
  have close := fun t : State => foldl_map t State.closeSlot fun _ _ => ⟨rfl, rfl⟩
  have share := fun shares : List (PeriodEntry × Nat) =>
    foldl_map s (fun s p => s.modifyJob p.1.slot fun j => j.addShare p.2) (fun _ _ => ⟨rfl, rfl⟩) shares
  unfold State.allocate
  dsimp only
  split <;> simp [close, State.applyShares, share]

@[simp] theorem State.teachClass_map (n : Option Nat) (k : Option ClassEntry) (d : Option Nat) :
    (s.teachClass n k d).lanes = s.lanes ∧ (s.teachClass n k d).setup = s.setup := by
  unfold State.teachClass
  split
  · split
    · split <;> exact ⟨rfl, rfl⟩
    · exact ⟨rfl, rfl⟩
  · exact ⟨rfl, rfl⟩

@[simp] theorem State.accountWork_map (k : Closing) :
    (s.accountWork c x k).lanes = s.lanes ∧ (s.accountWork c x k).setup = s.setup := by
  unfold State.accountWork State.bookPickup
  cases k.credited <;> simp

@[simp] theorem State.accountDross_map (k : Closing) :
    (s.accountDross c x k).lanes = s.lanes ∧ (s.accountDross c x k).setup = s.setup := by
  unfold State.accountDross
  dsimp only
  split <;> simp

@[simp] theorem State.account_map (cause : EndCause) (reported : Option Int) :
    (s.account c cause reported).lanes = s.lanes ∧ (s.account c cause reported).setup = s.setup := by
  unfold State.account
  dsimp only
  split <;> simp [State.endWatch]

@[simp] theorem State.takeTimer_map (t : TimerStep) (reported : Option Int) :
    (s.takeTimer c t reported).lanes = s.lanes ∧ (s.takeTimer c t reported).setup = s.setup := by
  unfold State.takeTimer State.endDrain
  dsimp only
  split
  · split <;> simp
  · simp

@[simp] theorem State.startDrain_map (k : ClassEntry) :
    (s.startDrain c k).lanes = s.lanes ∧ (s.startDrain c k).setup = s.setup := by
  unfold State.startDrain
  dsimp only
  split <;> simp

@[simp] theorem State.judgeQuiet_map (stored : Bool) :
    (s.judgeQuiet stored).lanes = s.lanes ∧ (s.judgeQuiet stored).setup = s.setup := by
  unfold State.judgeQuiet
  split <;> exact ⟨rfl, rfl⟩

@[simp] theorem State.reconcile_map : s.reconcile.lanes = s.lanes ∧ s.reconcile.setup = s.setup := by
  unfold State.reconcile
  dsimp only
  split
  · simp
  · split
    · split <;> simp
    · simp

@[simp] theorem State.scanBath_map (level temp : Reading) :
    (s.scanBath level temp).lanes = s.lanes ∧ (s.scanBath level temp).setup = s.setup := by
  simp [State.scanBath, apply_ite State.lanes, apply_ite State.setup]

@[simp] theorem State.recalibrate_map (old new : Settings) :
    (s.recalibrate old new).lanes = s.lanes ∧ (s.recalibrate old new).setup = s.setup := by
  unfold State.recalibrate
  dsimp only
  split <;> split <;> exact ⟨rfl, rfl⟩

@[simp] theorem State.tune_map (new : Settings) :
    (s.tune new).lanes = s.lanes ∧ (s.tune new).setup = s.setup := by
  unfold State.tune
  dsimp only
  split <;> simp

@[simp] theorem State.fallStop_map : s.fallStop.lanes = s.lanes ∧ s.fallStop.setup = s.setup := by
  unfold State.fallStop
  split <;> simp

@[simp] theorem State.riseStop_map : s.riseStop.lanes = s.lanes ∧ s.riseStop.setup = s.setup := by
  unfold State.riseStop
  split <;> exact ⟨rfl, rfl⟩

@[simp] theorem State.expireWithin_map (lead : Nat) :
    (s.expireWithin c lead).lanes = s.lanes ∧ (s.expireWithin c lead).setup = s.setup := by
  rw [State.expireWithin_frame]; exact ⟨rfl, rfl⟩

@[simp] theorem State.scanHook_map (r : Reading) :
    (s.scanHook c r).lanes = s.lanes ∧ (s.scanHook c r).setup = s.setup := by
  unfold State.scanHook State.faultHook State.noticeFault
  dsimp only
  split
  · split <;> simp
  · exact ⟨rfl, rfl⟩

@[simp] theorem State.scanWatch_map : (s.scanWatch c).lanes = s.lanes ∧ (s.scanWatch c).setup = s.setup := by
  unfold State.scanWatch State.scanBlanking State.scanAfter
  dsimp only
  split
  · exact ⟨rfl, rfl⟩
  · split <;> exact ⟨rfl, rfl⟩
  · split <;> simp

@[simp] theorem State.loadScan_map (rA rB : Reading) (first : Crane) :
    (s.loadScan rA rB first).lanes = s.lanes ∧ (s.loadScan rA rB first).setup = s.setup := by
  simp [State.loadScan, State.scanHooks, State.elapse]

@[simp] theorem State.tickTimer_map : (s.tickTimer c).lanes = s.lanes ∧ (s.tickTimer c).setup = s.setup := by
  unfold State.tickTimer
  split <;> simp

@[simp] theorem State.meetCompare_map : (s.meetCompare c).lanes = s.lanes ∧ (s.meetCompare c).setup = s.setup := by
  unfold State.meetCompare
  dsimp only
  split <;> simp

@[simp] theorem State.saturateTimer_map :
    (s.saturateTimer c).lanes = s.lanes ∧ (s.saturateTimer c).setup = s.setup := by
  unfold State.saturateTimer
  dsimp only
  split <;> simp

@[simp] theorem State.reachAfter_map : (s.reachAfter c).lanes = s.lanes ∧ (s.reachAfter c).setup = s.setup := by
  unfold State.reachAfter
  dsimp only
  split <;> simp

@[simp] theorem State.noticeDefaulted_map :
    (s.noticeDefaulted c).lanes = s.lanes ∧ (s.noticeDefaulted c).setup = s.setup := by
  unfold State.noticeDefaulted
  split <;> simp

@[simp] theorem State.noticeInvalid_map : s.noticeInvalid.lanes = s.lanes ∧ s.noticeInvalid.setup = s.setup := by
  unfold State.noticeInvalid
  split <;> simp

@[simp] theorem State.noticeDamage_map (count : Nat) :
    (s.noticeDamage count).lanes = s.lanes ∧ (s.noticeDamage count).setup = s.setup := by
  unfold State.noticeDamage
  split <;> simp

@[simp] theorem State.released_map (count : Nat) :
    (s.released count).lanes = s.lanes ∧ (s.released count).setup = s.setup := by
  unfold State.released
  dsimp only
  split <;> simp

end MapFrames
end Sys2Proof.Machine

namespace Sys2Proof.Machine

/-! ### The lane map's own changes -/

/-- The lane records and the kettle setup that bounds them (section 1). -/
structure LaneMap where
  lanes : List Lane
  setup : Setup

/-- The lane map of a state. -/
def State.laneMap (s : State) : LaneMap := { lanes := s.lanes, setup := s.setup }

/-- One change of the lane map, with the test of the rule that makes it: a span taken by one crane in the crane order (R8, R9), or
for a tandem entry or a charge (R10, R13); an entry's lanes freed (R15, R18, R21) or made FOUL (R22); FOUL lanes cleared (R23); a
setup given to an empty map (R4); the map rebuilt at restart (R2). -/
inductive MapMove (m : LaneMap) : LaneMap → Prop
  | reserved (c : Crane) (sp : Span) (n : Nat) (order : orderBroken c m.lanes m.setup.g sp = false) :
      MapMove m { m with lanes := takeSpan m.lanes sp (holderOf c false) n }
  | shared (h : Holder) (sp : Span) (n : Nat) (noCrane : h = .tandem ∨ h = .feed) :
      MapMove m { m with lanes := takeSpan m.lanes sp h n }
  | freed (n : Nat) : MapMove m { m with lanes := freeEntry m.lanes n }
  | fouled (n : Nat) : MapMove m { m with lanes := foulEntry m.lanes n }
  | cleared (n : Nat) : MapMove m { m with lanes := clearFoulLanes m.lanes n }
  | setUp (u : Setup) (empty : ∀ ln ∈ m.lanes, ln.holder = .free) : MapMove m { m with setup := u }
  | rebuilt (foul : List FoulItem) (u : Setup) : MapMove m { lanes := lanesRestored foul, setup := u }

/-- From the lane map of one state to that of another by changes of the map alone. -/
def State.mapPath (s t : State) : Prop := Relation.ReflTransGen MapMove s.laneMap t.laneMap

theorem State.mapPath.trans {s t u : State} (h : s.mapPath t) (h' : t.mapPath u) : s.mapPath u :=
  Relation.ReflTransGen.trans h h'

/-- A state with the same lanes and setup has the same lane map. -/
theorem State.mapPath_of_kept {s t : State} (h : t.lanes = s.lanes ∧ t.setup = s.setup) : s.mapPath t := by
  have same : t.laneMap = s.laneMap := by simp [State.laneMap, h]
  rw [State.mapPath, same]

theorem State.mapPath_refl (s : State) : s.mapPath s := Relation.ReflTransGen.refl

/-- One change of the map, after which the lanes and the setup stand as given. -/
theorem State.mapPath_of_move {s t : State} {m : LaneMap} (move : MapMove s.laneMap m)
    (h : t.lanes = m.lanes ∧ t.setup = m.setup) : s.mapPath t := by
  have same : t.laneMap = m := by simp [State.laneMap, h]
  rw [State.mapPath, same]
  exact .single move

/-! ### What the owning rules do to the map -/

/-- What a rule makes of the lane map: a refusal or a read leaves it. -/
def Reply.mapPath (s : State) : Reply → Prop
  | .done _ new => s.mapPath new
  | .refused _ | .told _ => True

@[simp] theorem Reply.mapPath_refused (s : State) (st : Status) : (Reply.refused st).mapPath s := trivial
@[simp] theorem Reply.mapPath_told (s : State) (ans : List Byte) : (Reply.told ans).mapPath s := trivial

/-- A rule whose new state has the lanes and the setup of the old one. -/
theorem Reply.mapPath_done_of_kept {s new : State} {ans : List Byte} (h : new.lanes = s.lanes ∧ new.setup = s.setup) :
    (Reply.done ans new).mapPath s := State.mapPath_of_kept h

/-- A RESERVE is admitted exactly when every test of R6 passes. -/
theorem reserveRefusal_eq_none {c : Crane} {a : ReserveArgs} {s : State} :
    reserveRefusal c a s = none ↔
      reserveBusy c a s = false ∧ s.mode = .run ∧ reserveJobRefusal a s = none ∧ reserveBadValue c a s = false ∧
        spanFree s.lanes { f := a.f, l := a.l } = true ∧
        (a.tandem = 0 → orderBroken c s.lanes s.setup.g { f := a.f, l := a.l } = false) := by
  unfold reserveRefusal
  cases reserveJobRefusal a s <;> dsimp only <;> split_ifs <;> simp_all

/-- An admitted RESERVE is a tandem one or not (R5). -/
theorem tandem_of_reserveBadValue {c : Crane} {a : ReserveArgs} {s : State} (h : reserveBadValue c a s = false) :
    a.tandem = 0 ∨ a.tandem = 1 := by
  simp only [reserveBadValue, Bool.or_eq_false_iff, Bool.and_eq_false_iff, bne_eq_false_iff_eq] at h
  tauto

@[simp] theorem State.raiseOpenDip_map (s : State) (job : Option JobRef) :
    (s.raiseOpenDip job).lanes = s.lanes ∧ (s.raiseOpenDip job).setup = s.setup := by
  unfold State.raiseOpenDip
  split <;> simp

@[simp] theorem State.admitCrane_map (s : State) (c : Crane) (a : ReserveArgs) :
    (s.admitCrane c a).lanes = takeSpan s.lanes { f := a.f, l := a.l } (holderOf c (a.tandem == 1)) s.issued ∧
      (s.admitCrane c a).setup = s.setup := by
  unfold State.admitCrane
  dsimp only
  split <;> simp

theorem reserveRule_mapPath (c : Crane) (body : List Byte) (s : State) : (reserveRule c body s).mapPath s := by
  unfold reserveRule
  dsimp only
  split
  · trivial
  · rename_i h
    obtain ⟨-, -, -, bad, -, order⟩ := reserveRefusal_eq_none.1 h
    rcases tandem_of_reserveBadValue bad with h0 | h1
    · exact State.mapPath_of_move (.reserved c _ s.issued (order h0)) (by simp [h0, State.laneMap])
    · exact State.mapPath_of_move
        (.shared .tandem { f := (ReserveArgs.read body).f, l := (ReserveArgs.read body).l } s.issued (.inl rfl))
        (by simp [h1, State.laneMap, holderOf])

/-- The end of a crane's reservation frees its lanes (R15, R18). -/
theorem State.endReservation_mapPath (s : State) (c : Crane) (mark : Option Nat) : s.mapPath (s.endReservation c mark) :=
  State.mapPath_of_move (.freed (numberOr0 (s.cranes.get c).entry)) (by simp [State.endReservation, State.laneMap])

/-- The end of a feed entry frees the feed zone (R15, R19, R20). -/
theorem State.endFeed_mapPath (s : State) (mark : Option Nat) : s.mapPath (s.endFeed mark) :=
  State.mapPath_of_move (.freed (numberOr0 s.feed.entry)) (by simp [State.endFeed, State.laneMap])

theorem releaseRule_mapPath (c : Crane) (s : State) : (releaseRule c s).mapPath s := by
  unfold releaseRule
  dsimp only
  split
  · split
    · trivial
    · exact s.endReservation_mapPath c none
  all_goals trivial

theorem chargeRule_mapPath (body : List Byte) (s : State) : (chargeRule body s).mapPath s := by
  unfold chargeRule
  dsimp only
  split_ifs
  all_goals first | trivial | exact State.mapPath_of_move (.shared .feed _ s.issued (.inr rfl)) ⟨rfl, rfl⟩

theorem chargeAbortRule_mapPath (s : State) : (chargeAbortRule s).mapPath s := by
  unfold chargeAbortRule
  split
  · exact s.endFeed_mapPath none
  · trivial

theorem chargeInRule_mapPath (s : State) : (chargeInRule s).mapPath s := by
  unfold chargeInRule
  split
  · exact (State.mapPath_of_kept (by simp)).trans (State.endFeed_mapPath _ none)
  · trivial

theorem setupKettleRule_mapPath (body : List Byte) (s : State) : (setupKettleRule body s).mapPath s := by
  unfold setupKettleRule
  dsimp only
  split
  · trivial
  · split
    · trivial
    · rename_i empty
      split
      · trivial
      · exact State.mapPath_of_move (.setUp _ (by simpa [State.laneMap] using empty)) ⟨rfl, rfl⟩

theorem clearFoulRule_mapPath (body : List Byte) (s : State) : (clearFoulRule body s).mapPath s := by
  unfold clearFoulRule
  dsimp only
  split
  · exact State.mapPath_of_move (.cleared (readU16 body)) ⟨rfl, rfl⟩
  · trivial

/-- A crane entry that ends frees its lanes (R48). -/
theorem State.endEntry_mapPath (s : State) (c : Crane) : s.mapPath (s.endEntry c) :=
  State.mapPath_of_move (.freed (numberOr0 (s.cranes.get c).entry)) (by simp [State.endEntry, State.laneMap])

theorem leaveRule_mapPath (c : Crane) (s : State) : (leaveRule c s).mapPath s := by
  unfold leaveRule
  dsimp only
  split
  · trivial
  · split
    · exact s.endEntry_mapPath c
    · exact (State.mapPath_of_kept (by simp)).trans (State.endEntry_mapPath _ c)

@[simp] theorem State.dropJob_map (s : State) (job : Option JobRef) :
    (s.dropJob job).1.lanes = s.lanes ∧ (s.dropJob job).1.setup = s.setup := by
  unfold State.dropJob
  split <;> simp

theorem droppedRule_mapPath (c : Crane) (s : State) : (droppedRule c s).mapPath s := by
  unfold droppedRule
  split
  · trivial
  · exact State.mapPath_of_move (.fouled (numberOr0 (s.cranes.get c).entry)) (by simp [State.dropPiece, State.laneMap])

/-- A rule of a crane's request does to the map what it does for each crane. -/
theorem byCrane_mapPath {p : Port} {rule : Crane → Reply} {s : State} (h : ∀ c, (rule c).mapPath s) :
    (byCrane p rule).mapPath s := by
  unfold byCrane
  split
  · exact h _
  · trivial

/-- The owning rules of the requests that move nothing on the lane map leave the lanes and the setup. -/
theorem ownRule_mapPath_of_kept (r : Request) (p : Port) (body : List Byte) (s : State)
    (h : r ∉ ([.reserve, .release, .leave, .dropped, .charge, .chargeIn, .chargeAbort, .setupKettle, .clearFoul] :
      List Request)) : (ownRule r p body s).mapPath s := by
  cases r with
  | status | readBook | readLanes => trivial
  | join | lower | submerged | withdraw | clear | turned | readHook | zeroHook =>
    refine byCrane_mapPath fun c => ?_
    simp only [joinRule, lowerRule, submergedRule, withdrawRule, clearRule, turnedRule, readHookRule, zeroHookRule]
    repeat' split
    all_goals first | trivial | exact Reply.mapPath_done_of_kept (by simp)
  | takeNotice | skim | tuneKettle | setClass | readClass | setHook | openJob | closeJob | readJob | removeJob | takeRecords
  | rebase | openBook | resume | hold | reconcileNow =>
    simp only [ownRule, takeNoticeRule, skimRule, tuneKettleRule, setClassRule, readClassRule, setHookRule, openJobRule,
      closeJobRule, closeJobWait, closeJobNow, readJobRule, removeJobRule, takeRecordsRule, rebaseRule, openBookRule,
      resumeRule, holdRule, reconcileNowRule]
    repeat' split
    all_goals first | trivial | exact Reply.mapPath_done_of_kept (by simp)
  | reserve | release | leave | dropped | charge | chargeIn | chargeAbort | setupKettle | clearFoul => simp at h

/-- Every owning rule changes the lane map by its own changes alone. -/
theorem ownRule_mapPath (r : Request) (p : Port) (body : List Byte) (s : State) : (ownRule r p body s).mapPath s := by
  cases r with
  | reserve => exact byCrane_mapPath fun c => reserveRule_mapPath c body s
  | release => exact byCrane_mapPath fun c => releaseRule_mapPath c s
  | leave => exact byCrane_mapPath fun c => leaveRule_mapPath c s
  | dropped => exact byCrane_mapPath fun c => droppedRule_mapPath c s
  | charge => exact chargeRule_mapPath body s
  | chargeIn => exact chargeInRule_mapPath s
  | chargeAbort => exact chargeAbortRule_mapPath s
  | setupKettle => exact setupKettleRule_mapPath body s
  | clearFoul => exact clearFoulRule_mapPath body s
  | _ => exact ownRule_mapPath_of_kept _ p body s (by simp)

/-! ### What a step does to the map -/

theorem State.serve_mapPath (s : State) (p : Port) (r : Request) (body : List Byte) : s.mapPath (s.serve p r body) := by
  have own := ownRule_mapPath r p body s
  rcases s.serve_cases p r body with ⟨st, -, h⟩ | ⟨ans, -, h⟩ | ⟨ans, new, ho, h⟩
  · rw [h]; exact State.mapPath_of_kept (by simp)
  · rw [h]; exact State.mapPath_of_kept (by simp)
  · rw [h]
    rw [ho] at own
    exact State.mapPath.trans own (State.mapPath_of_kept (by simp))

theorem State.settle_mapPath (s : State) (p : Port) : s.mapPath (s.settle p) := by
  unfold State.settle
  split
  · exact s.serve_mapPath p _ _
  · exact s.mapPath_refl

theorem State.judge_mapPath (s : State) (p : Port) (rx : ReceiveBuffer) (check : Byte) :
    s.mapPath (s.judge p rx check) := by
  rcases State.judge_cases (s := s) (p := p) (rx := rx) (check := check) with ⟨st, h⟩ | ⟨r, -, -, -, h⟩
  · rw [h]; exact State.mapPath_of_kept (by simp)
  · rw [h]; exact s.serve_mapPath p r _

/-- The end of a transfer leaves the map. -/
theorem State.mapPath.endTransfer {s t : State} (h : s.mapPath t) (p : Port) : s.mapPath (t.endTransfer p) :=
  h.trans (State.mapPath_of_kept (by simp))

theorem State.writeTransfer_mapPath (s : State) (p : Port) (addr : LinkAddress) (code : Byte) (body : List Byte)
    (check : Byte) : s.mapPath (s.writeTransfer p addr code body check) := by
  unfold State.writeTransfer
  split
  · exact ((s.settle_mapPath p).trans (State.judge_mapPath _ p _ check)).endTransfer p
  · exact s.mapPath_refl

theorem State.readFrom_mapPath (s : State) (p : Port) (clocked : Nat) : s.mapPath (s.readFrom p clocked) :=
  ((s.settle_mapPath p).trans (State.mapPath_of_kept ⟨rfl, rfl⟩)).endTransfer p

theorem State.dropWrite_mapPath (s : State) (p : Port) : s.mapPath (s.dropWrite p) := (s.settle_mapPath p).endTransfer p

/-- The lapse of a reservation frees its lanes (R15). -/
theorem State.lapseEntry_mapPath (s : State) (c : Context) : s.mapPath (s.lapseEntry c) := by
  have crane : ∀ c : Crane, s.mapPath (s.lapseCrane c) := fun c =>
    (s.endReservation_mapPath (s.leadOf c) (s.cranes.get (s.leadOf c)).entry).trans
      (State.mapPath_of_kept (by simp [State.lapseCrane]))
  unfold State.lapseEntry
  split
  · cases c with
    | craneA => exact crane .craneA
    | craneB => exact crane .craneB
    | feed => exact (s.endFeed_mapPath s.feed.entry).trans (State.mapPath_of_kept ⟨rfl, rfl⟩)
  · exact s.mapPath_refl

theorem State.runOut_mapPath (s : State) (c : Context) : s.mapPath (s.runOut c) := by
  unfold State.runOut
  split
  · exact (s.lapseEntry_mapPath c).trans (State.mapPath_of_kept (by simp))
  · exact s.mapPath_refl

theorem State.runOuts_mapPath (s : State) : s.mapPath s.runOuts :=
  ((s.runOut_mapPath _).trans (State.runOut_mapPath _ _)).trans (State.runOut_mapPath _ _)

/-- An event that a running part takes changes the map as its own meaning does. -/
theorem State.whileRunning_mapPath {s : State} {act : State → State} (h : ∀ t : State, t.mapPath (act t)) :
    s.mapPath (s.whileRunning act) := by
  unfold State.whileRunning
  split
  · exact h s
  · exact s.mapPath_refl

theorem State.settleAll_mapPath (s : State) : s.mapPath s.settleAll.1 :=
  (((s.settle_mapPath .craneA).trans (State.settle_mapPath _ .craneB)).trans (State.settle_mapPath _ .feed)).trans
    (State.settle_mapPath _ .office)

theorem State.flushPart_mapPath (s : State) : s.mapPath s.flushPart := by
  unfold State.flushPart
  split
  · exact s.settleAll_mapPath.trans (State.mapPath_of_kept ⟨rfl, rfl⟩)
  · exact s.mapPath_refl

/-- A restart that runs to its end rebuilds the map from the FOUL items; one that is cut short leaves it (R194, R198). -/
theorem State.restart_mapPath (s : State) (upsets : List Upset) (cut : Option RestartCut) :
    s.mapPath (s.restart upsets cut) := by
  unfold State.restart
  dsimp only
  split
  · exact State.mapPath_of_move (.rebuilt _ _) (by simp only [State.restartWhole, State.released_map]; exact ⟨rfl, rfl⟩)
  · exact State.mapPath_of_kept ⟨rfl, rfl⟩

theorem State.tryRestart_mapPath (s : State) (upsets : List Upset) (cut : Option RestartCut) :
    s.mapPath (s.tryRestart upsets cut) := by
  unfold State.tryRestart
  split
  · exact s.restart_mapPath upsets cut
  · exact s.mapPath_refl

/-- Whatever command a part takes, its lane map changes by the map's own changes alone. -/
theorem exec_mapPath {i : Instr} {s t : State} (h : exec i s = .next t) : s.mapPath t := by
  cases i <;> cases h
  case unknownRequest => exact s.writeTransfer_mapPath _ _ _ _ _
  case readTransfer =>
    split
    · exact s.readFrom_mapPath _ _
    · exact s.mapPath_refl
  case shortWrite =>
    split
    · exact s.dropWrite_mapPath _
    · exact s.mapPath_refl
  case linkLowTimeout p during =>
    split
    · cases during with
      | idle => exact s.mapPath_refl
      | writing bytes => exact s.dropWrite_mapPath p
      | reading clocked => exact s.readFrom_mapPath p clocked
    · exact s.mapPath_refl
  case lapseExpiry c =>
    exact State.whileRunning_mapPath fun t => ((State.mapPath_of_kept (t := t.writeDue .lapse) (by simp)).trans
      (State.lapseEntry_mapPath _ c)).trans (State.mapPath_of_kept (by simp))
  case loadScan rA rB first =>
    exact State.whileRunning_mapPath fun t => ((State.mapPath_of_kept (t := t.writeDue .loadScan) (by simp)).trans
      (State.runOuts_mapPath _)).trans (State.mapPath_of_kept (by simp))
  case immersionLimitExpiry | drainTimerTick | timedCompareMet | drainSaturation | blankingEnd =>
    exact State.whileRunning_mapPath fun t => State.mapPath_of_kept (by simp [State.expireImmersion])
  case bathScan => exact State.whileRunning_mapPath fun t => State.mapPath_of_kept (by simp [State.scrub])
  case stopFall | stopRise =>
    refine State.mapPath.trans ?_ (State.whileRunning_mapPath fun t => State.mapPath_of_kept (by simp))
    exact State.mapPath_of_kept ⟨rfl, rfl⟩
  case supplyFailFall | resetAssert =>
    refine State.mapPath.trans ?_ (State.flushPart_mapPath _)
    exact State.mapPath_of_kept ⟨rfl, rfl⟩
  case resetRelease upsets cut | supplyFailRise upsets cut =>
    refine State.mapPath.trans ?_ (State.tryRestart_mapPath _ upsets cut)
    exact State.mapPath_of_kept ⟨rfl, rfl⟩
  case powerOn upsets cut =>
    split
    · exact s.mapPath_refl
    · refine State.mapPath.trans ?_ (State.tryRestart_mapPath _ upsets cut)
      exact State.mapPath_of_kept ⟨rfl, rfl⟩
  case supplyCollapse tears =>
    refine s.flushPart_mapPath.trans (State.mapPath_of_kept ?_)
    unfold State.collapse
    split <;> exact ⟨rfl, rfl⟩
  all_goals exact s.writeTransfer_mapPath _ _ _ _ _

theorem step_mapPath {s t : State} (h : step s = .next t) : s.mapPath t := by
  unfold step at h
  split at h
  · cases h; exact s.mapPath_refl
  · refine State.mapPath.trans ?_ (exec_mapPath h)
    exact State.mapPath_of_kept ⟨rfl, rfl⟩

/-- What every change of the lane map keeps, every step keeps. -/
theorem step_keeps_map {P : LaneMap → Prop} (keep : ∀ m m' : LaneMap, MapMove m m' → P m → P m') {s t : State}
    (h : step s = .next t) (hs : P s.laneMap) : P t.laneMap := by
  have path : Relation.ReflTransGen MapMove s.laneMap t.laneMap := step_mapPath h
  generalize t.laneMap = m at path
  induction path with
  | refl => exact hs
  | tail _ move ih => exact keep _ _ move ih

end Sys2Proof.Machine

namespace Sys2Proof.Machine

/-! ### Lanes one by one -/

theorem Span.holds_iff {sp : Span} {i : Nat} : sp.holds i = true ↔ sp.f ≤ i ∧ i ≤ sp.l := by simp [Span.holds]

@[simp] theorem takeSpan_getElem? (lanes : List Lane) (sp : Span) (h : Holder) (n i : Nat) :
    (takeSpan lanes sp h n)[i]? =
      (lanes[i]?).map fun ln => if sp.holds i then { holder := h, entry := some n } else ln := by
  simp [takeSpan, List.getElem?_map, List.getElem?_zipIdx, Option.map_map, Function.comp_def]

@[simp] theorem length_takeSpan (lanes : List Lane) (sp : Span) (h : Holder) (n : Nat) :
    (takeSpan lanes sp h n).length = lanes.length := by simp [takeSpan]

/-- A lane of a map of which a span was taken is one of the span or one of the map before. -/
theorem mem_takeSpan {lanes : List Lane} {sp : Span} {h : Holder} {n : Nat} {ln : Lane} (hl : ln ∈ takeSpan lanes sp h n) :
    ln = { holder := h, entry := some n } ∨ ln ∈ lanes := by
  obtain ⟨i, hi⟩ := List.mem_iff_getElem?.1 hl
  rw [takeSpan_getElem?, Option.map_eq_some_iff] at hi
  obtain ⟨old, hold, rfl⟩ := hi
  split
  · exact .inl rfl
  · exact .inr (List.mem_of_getElem? hold)

/-- What a rebuilt map can hold: a FREE lane, or a FOUL one with a number (R2). -/
theorem mem_lanesRestored {foul : List FoulItem} {ln : Lane} (h : ln ∈ lanesRestored foul) :
    ln = Lane.free ∨ ∃ n, ln = { holder := .foul, entry := some n } := by
  unfold lanesRestored at h
  suffices ∀ lanes : List Lane, (∀ ln ∈ lanes, ln = Lane.free ∨ ∃ n, ln = { holder := .foul, entry := some n }) →
      ∀ ln ∈ foul.foldl (fun lanes it => takeSpan lanes { f := it.f, l := it.l } .foul it.entry) lanes,
        ln = Lane.free ∨ ∃ n, ln = { holder := .foul, entry := some n } from
    this freeLanes (fun ln hf => .inl (List.eq_of_mem_replicate hf)) ln h
  clear h ln
  induction foul with
  | nil => exact fun lanes h => h
  | cons it rest ih =>
    intro lanes h
    refine ih _ fun ln hl => ?_
    rcases mem_takeSpan hl with rfl | hold
    · exact .inr ⟨it.entry, rfl⟩
    · exact h ln hold

@[simp] theorem length_lanesRestored (foul : List FoulItem) : (lanesRestored foul).length = Config.laneCount := by
  unfold lanesRestored
  suffices ∀ lanes : List Lane, (foul.foldl (fun lanes it => takeSpan lanes { f := it.f, l := it.l } .foul it.entry)
      lanes).length = lanes.length by rw [this]; rfl
  induction foul with
  | nil => exact fun lanes => rfl
  | cons it rest ih => exact fun lanes => (ih _).trans (length_takeSpan _ _ _ _)

/-! ### The order of the cranes (R8) -/

/-- A lane of a crane in the map `lanes'` stood under that crane in `lanes`. -/
def craneLanesStay (lanes lanes' : List Lane) : Prop :=
  ∀ (i : Nat) (h : Holder), h = .craneA ∨ h = .craneB → (lanes'[i]?).map Lane.holder = some h →
    (lanes[i]?).map Lane.holder = some h

/-- Where no crane gains a lane, the order of the cranes stays. -/
theorem craneOrder_of_stay {lanes lanes' : List Lane} {g : Nat} (stay : craneLanesStay lanes lanes')
    (h : craneOrder lanes g) : craneOrder lanes' g := fun i j hi hj =>
  h i j (stay i .craneA (.inl rfl) hi) (stay j .craneB (.inr rfl) hj)

/-- A map whose lanes are changed one by one, none of them into a crane's. -/
theorem craneLanesStay_map {lanes : List Lane} {f : Lane → Lane}
    (h : ∀ ln, f ln = ln ∨ ((f ln).holder ≠ .craneA ∧ (f ln).holder ≠ .craneB)) : craneLanesStay lanes (lanes.map f) := by
  intro i c hc hi
  simp only [List.getElem?_map, Option.map_map, Option.map_eq_some_iff, Function.comp_apply] at hi ⊢
  obtain ⟨ln, hln, rfl⟩ := hi
  rcases h ln with same | ⟨notA, notB⟩
  · exact ⟨ln, hln, by rw [same]⟩
  · rcases hc with hc | hc
    · exact absurd hc notA
    · exact absurd hc notB

/-- A lane of a list that has a property of its record and its index, found by index. -/
theorem exists_zipIdx_iff {lanes : List Lane} {h : Holder} {P : Nat → Prop} :
    (∃ p ∈ lanes.zipIdx, p.1.holder = h ∧ P p.2) ↔ ∃ i, (lanes[i]?).map Lane.holder = some h ∧ P i := by
  constructor
  · rintro ⟨⟨ln, i⟩, hp, rfl, hi⟩
    exact ⟨i, by simp [List.mk_mem_zipIdx_iff_getElem?.1 hp], hi⟩
  · rintro ⟨i, hh, hi⟩
    obtain ⟨ln, hln, rfl⟩ := Option.map_eq_some_iff.1 hh
    exact ⟨(ln, i), List.mk_mem_zipIdx_iff_getElem?.2 hln, rfl, hi⟩

/-- Crane A's span breaks the order at a lane of crane B below l + G + 1 (R8). -/
theorem orderBroken_craneA {lanes : List Lane} {g : Nat} {sp : Span} :
    orderBroken .craneA lanes g sp = true ↔ ∃ i, (lanes[i]?).map Lane.holder = some .craneB ∧ i < sp.l + g + 1 := by
  rw [← exists_zipIdx_iff (P := fun i => i < sp.l + g + 1)]
  simp only [orderBroken, List.any_eq_true, Bool.and_eq_true, beq_iff_eq, decide_eq_true_eq]

/-- Crane B's span breaks the order at a lane of crane A above f - G - 1 (R8). -/
theorem orderBroken_craneB {lanes : List Lane} {g : Nat} {sp : Span} :
    orderBroken .craneB lanes g sp = true ↔ ∃ i, (lanes[i]?).map Lane.holder = some .craneA ∧ sp.f < i + g + 1 := by
  rw [← exists_zipIdx_iff (P := fun i => sp.f < i + g + 1)]
  simp only [orderBroken, List.any_eq_true, Bool.and_eq_true, beq_iff_eq, decide_eq_true_eq]

/-- A lane of a map of which a span was taken lies in the span, under its holder, or stood under its holder before. -/
theorem holder_takeSpan {lanes : List Lane} {sp : Span} {k h : Holder} {n i : Nat}
    (hi : ((takeSpan lanes sp k n)[i]?).map Lane.holder = some h) :
    (sp.f ≤ i ∧ i ≤ sp.l ∧ h = k) ∨ (lanes[i]?).map Lane.holder = some h := by
  simp only [takeSpan_getElem?, Option.map_map, Option.map_eq_some_iff, Function.comp_apply] at hi
  obtain ⟨ln, hln, hh⟩ := hi
  split at hh
  · rename_i hs
    obtain ⟨hf, hl⟩ := Span.holds_iff.1 hs
    exact .inl ⟨hf, hl, hh.symm⟩
  · exact .inr (by simp [hln, hh])

/-- A span taken by a holder that is no crane. -/
theorem craneLanesStay_takeSpan {lanes : List Lane} {sp : Span} {k : Holder} {n : Nat} (notA : k ≠ .craneA)
    (notB : k ≠ .craneB) : craneLanesStay lanes (takeSpan lanes sp k n) := by
  intro i h hc hi
  rcases holder_takeSpan hi with ⟨-, -, rfl⟩ | old
  · rcases hc with hc | hc
    · exact absurd hc notA
    · exact absurd hc notB
  · exact old

/-- A crane's span in the order leaves the map in the order: the lanes of the span lie clear of the other crane's (R8). -/
theorem craneOrder_takeSpan {lanes : List Lane} {g : Nat} {c : Crane} {sp : Span} {n : Nat} (h : craneOrder lanes g)
    (order : orderBroken c lanes g sp = false) : craneOrder (takeSpan lanes sp (holderOf c false) n) g := by
  intro i j hi hj
  cases c with
  | craneA =>
    have clear : ¬∃ k, (lanes[k]?).map Lane.holder = some .craneB ∧ k < sp.l + g + 1 := by
      rw [← orderBroken_craneA, order]; decide
    rcases holder_takeSpan hj with ⟨-, -, hb⟩ | oldB
    · cases hb
    · rcases holder_takeSpan hi with ⟨-, hl, -⟩ | oldA
      · have high : ¬j < sp.l + g + 1 := fun low => clear ⟨j, oldB, low⟩
        omega
      · exact h i j oldA oldB
  | craneB =>
    have clear : ¬∃ k, (lanes[k]?).map Lane.holder = some .craneA ∧ sp.f < k + g + 1 := by
      rw [← orderBroken_craneB, order]; decide
    rcases holder_takeSpan hi with ⟨-, -, ha⟩ | oldA
    · cases ha
    · rcases holder_takeSpan hj with ⟨hf, -, -⟩ | oldB
      · have low : ¬sp.f < i + g + 1 := fun high => clear ⟨i, oldA, high⟩
        omega
      · exact h i j oldA oldB

/-- A map in which no crane holds a lane is in the order, whatever G. -/
theorem craneOrder_of_none {lanes : List Lane} (g : Nat) (h : ∀ ln ∈ lanes, ln.holder ≠ .craneA) : craneOrder lanes g := by
  intro i j hi
  obtain ⟨ln, hln, ha⟩ := Option.map_eq_some_iff.1 hi
  exact absurd ha (h ln (List.mem_of_getElem? hln))

/-- Every change of the lane map keeps the order of the cranes. -/
theorem MapMove.keeps_craneOrder {m m' : LaneMap} (move : MapMove m m') (h : craneOrder m.lanes m.setup.g) :
    craneOrder m'.lanes m'.setup.g := by
  cases move with
  | reserved c sp n order => exact craneOrder_takeSpan h order
  | shared k sp n noCrane =>
    refine craneOrder_of_stay (craneLanesStay_takeSpan ?_ ?_) h <;> rcases noCrane with rfl | rfl <;> decide
  | freed n => exact craneOrder_of_stay (craneLanesStay_map fun ln => by split <;> simp [Lane.free]) h
  | fouled n => exact craneOrder_of_stay (craneLanesStay_map fun ln => by split <;> simp) h
  | cleared n => exact craneOrder_of_stay (craneLanesStay_map fun ln => by split <;> simp [Lane.free]) h
  | setUp u empty => exact craneOrder_of_none _ fun ln hl => by simp [empty ln hl]
  | rebuilt foul u =>
    refine craneOrder_of_none _ fun ln hl => ?_
    rcases mem_lanesRestored hl with rfl | ⟨n, rfl⟩ <;> simp [Lane.free]

/-- Settles O6: a step changes the map by its own changes alone, and each of them keeps the order. -/
theorem cranes_keep_their_order : Obligations.Cranes_keep_their_order := fun _ _ order h =>
  step_keeps_map (P := fun m => craneOrder m.lanes m.setup.g) (fun _ _ move => move.keeps_craneOrder) h order

/-! ### The form of the lane records (R1) -/

/-- A lane is FREE exactly when it carries no number. -/
def Lane.formed (ln : Lane) : Prop := ln.holder = .free ↔ ln.entry = none

theorem Lane.free_formed : Lane.free.formed := by simp [Lane.formed, Lane.free]

theorem Lane.held_formed {h : Holder} (n : Nat) (held : h ≠ .free) : Lane.formed { holder := h, entry := some n } := by
  simp [Lane.formed, held]

/-- Sixteen lanes changed one by one into formed ones are formed. -/
theorem lanesFormed_map {lanes : List Lane} {f : Lane → Lane} (keep : ∀ ln, ln.formed → (f ln).formed)
    (h : lanesFormed lanes) : lanesFormed (lanes.map f) := by
  obtain ⟨count, formed⟩ := h
  refine ⟨by simpa using count, fun ln hl => ?_⟩
  obtain ⟨old, hold, rfl⟩ := List.mem_map.1 hl
  exact keep old (formed old hold)

theorem lanesFormed_takeSpan {lanes : List Lane} {sp : Span} {k : Holder} {n : Nat} (held : k ≠ .free)
    (h : lanesFormed lanes) : lanesFormed (takeSpan lanes sp k n) := by
  obtain ⟨count, formed⟩ := h
  refine ⟨by simpa using count, fun ln hl => ?_⟩
  rcases mem_takeSpan hl with rfl | hold
  · exact Lane.held_formed n held
  · exact formed ln hold

/-- Every change of the lane map keeps the form of its records. -/
theorem MapMove.keeps_lanesFormed {m m' : LaneMap} (move : MapMove m m') (h : lanesFormed m.lanes) :
    lanesFormed m'.lanes := by
  have free := Lane.free_formed
  have foul : ∀ n, Lane.formed { holder := .foul, entry := some n } := fun n => Lane.held_formed n (by decide)
  cases move with
  | reserved c sp n order => exact lanesFormed_takeSpan (by cases c <;> decide) h
  | shared k sp n noCrane => exact lanesFormed_takeSpan (by rcases noCrane with rfl | rfl <;> decide) h
  | freed n => exact lanesFormed_map (fun ln hl => by split <;> assumption) h
  | fouled n =>
    refine lanesFormed_map (fun ln hl => ?_) h
    split
    · exact foul n
    · exact hl
  | cleared n => exact lanesFormed_map (fun ln hl => by split <;> assumption) h
  | setUp u empty => exact h
  | rebuilt items u =>
    refine ⟨by simp, fun ln hl => ?_⟩
    rcases mem_lanesRestored hl with rfl | ⟨n, rfl⟩
    · exact free
    · exact foul n

/-- Settles O7: each change of the map writes FREE lanes without a number and held ones with one. -/
theorem lane_records_keep_their_form : Obligations.Lane_records_keep_their_form := fun _ _ formed h =>
  step_keeps_map (P := fun m => lanesFormed m.lanes) (fun _ _ move => move.keeps_lanesFormed) h formed

end Sys2Proof.Machine

namespace Sys2Proof.Machine

/-! ### Requests of a crane -/

@[simp] theorem Roles.permits_cranes_port (c : Crane) : Roles.cranes.permits c.port = true := by cases c <;> rfl

/-- A crane's request that its owning rule takes is accepted (R205). -/
theorem exec_crane_done {i : Instr} {s new : State} {c : Crane} {r : Request} {body ans : List Byte} {rule : Crane → Reply}
    (write : exec i s = .next (s.writeRequest c.port r body)) (takes : s.takes c.port = true) (role : r.roles = .cranes)
    (len : r.lengthOk body.length = true) (owner : ownRule r c.port body s = byCrane c.port rule)
    (own : rule c = .done ans new) : exec i s = .next (s.accepted c.port ans new) := by
  rw [write, State.writeRequest_done takes (by simp [role]) len (by rw [owner, byCrane_port, own])]

/-- A crane's request that its owning rule refuses changes nothing but the slot (R205). -/
theorem exec_crane_refused {i : Instr} {s : State} {c : Crane} {r : Request} {body : List Byte} {st : Status}
    {rule : Crane → Reply} (write : exec i s = .next (s.writeRequest c.port r body)) (takes : s.takes c.port = true)
    (role : r.roles = .cranes) (len : r.lengthOk body.length = true)
    (owner : ownRule r c.port body s = byCrane c.port rule) (own : rule c = .refused st) :
    exec i s = .next (s.replied c.port st []) := by
  rw [write, State.writeRequest_refused takes (by simp [role]) len (by rw [owner, byCrane_port, own])]

/-! ### What a RESERVE names (R5, R6, R31) -/

/-- Every lane of a span that is FREE lane by lane is FREE (R7). -/
theorem spanFree_of_free {lanes : List Lane} {sp : Span}
    (h : ∀ i : Nat, sp.f ≤ i → i ≤ sp.l → (lanes[i]?).map Lane.holder = some .free) : spanFree lanes sp = true := by
  simp only [spanFree, List.all_eq_true, Bool.or_eq_true, Bool.not_eq_true', beq_iff_eq]
  rintro ⟨ln, i⟩ hp
  rw [List.mk_mem_zipIdx_iff_getElem?] at hp
  cases hs : sp.holds i with
  | false => exact .inl rfl
  | true =>
    obtain ⟨hf, hl⟩ := Span.holds_iff.1 hs
    exact .inr (by simpa [hp] using h i hf hl)

/-- A span that lies on the map is FREE exactly when its lanes are. -/
theorem spanFree_iff {lanes : List Lane} {sp : Span} (fits : sp.l < lanes.length) :
    spanFree lanes sp = true ↔ ∀ i : Nat, sp.f ≤ i → i ≤ sp.l → (lanes[i]?).map Lane.holder = some .free := by
  refine ⟨fun h i hf hl => ?_, spanFree_of_free⟩
  simp only [spanFree, List.all_eq_true, Bool.or_eq_true, Bool.not_eq_true', beq_iff_eq] at h
  have hi := List.getElem?_eq_getElem (Nat.lt_of_le_of_lt hl fits)
  rcases h _ (List.mk_mem_zipIdx_iff_getElem?.2 hi) with out | free
  · have inside := Span.holds_iff.2 ⟨hf, hl⟩
    simp_all
  · simpa [hi] using free

theorem kindOfCode_eq_some {n : Nat} {k : EntryKind} :
    kindOfCode n = some k ↔ (n = 1 ∧ k = .work) ∨ (n = 2 ∧ k = .progressive) ∨ (n = 3 ∧ k = .dross) := by
  unfold kindOfCode
  split <;> cases k <;> simp_all

theorem kindOfCode_eq_none {n : Nat} : kindOfCode n = none ↔ n = 0 ∨ 3 < n := by
  match n with
  | 0 | 1 | 2 | 3 => simp [kindOfCode]
  | m + 4 => simp [kindOfCode]

/-- A class number of a RESERVE that resolves: one of the sixteen, or "default" for an entry that is billed (R6, R31). -/
def ReserveArgs.classFits (a : ReserveArgs) (k : EntryKind) : Prop :=
  (a.cls ≤ 15 ∨ a.cls = classDefault) ∧ (k = .dross → a.job = 0 ∧ a.cls ≠ classDefault)

/-- The kind, the job and the class of a RESERVE that resolves are those that its admission takes (R5, R31, R145). -/
theorem State.resolves.names {s : State} {a : ReserveArgs} {k : EntryKind} {j : Option JobRef} {n : Nat} {cls : ClassEntry}
    (h : s.resolves a k j n cls) :
    kindOfCode a.kind = some k ∧ reserveJobRefusal a s = none ∧ reserveJob a s = j ∧ reserveClass a s = n ∧
      s.classAt n = cls ∧ a.classFits k := by
  obtain ⟨hk, hc, hj⟩ := h
  have class_at : s.classAt n = cls := by simp [State.classAt, List.getD_eq_getElem?_getD, hc]
  have billed : (∃ i : Nat, s.slotOf a.job = some i ∧ (s.job i).state = .opened ∧ j = some { number := a.job, slot := i } ∧
      ((a.cls = n ∧ n ≤ 15) ∨ (a.cls = classDefault ∧ (s.job i).defaultClass = some n))) → k.billed = true → k ≠ .dross →
      kindOfCode a.kind = some k ∧ reserveJobRefusal a s = none ∧ reserveJob a s = j ∧ reserveClass a s = n ∧
      s.classAt n = cls ∧ a.classFits k := by
    rintro ⟨i, slot, opened, rfl, cls⟩ hb notDross
    have job : reserveJob a s = some { number := a.job, slot := i } := by simp [reserveJob, hk, hb, slot]
    refine ⟨hk, by simp [reserveJobRefusal, hk, hb, slot, opened], job, ?_, class_at, ?_, fun e => absurd e notDross⟩
    · unfold reserveClass
      rcases cls with ⟨e, small⟩ | ⟨e, dflt⟩
      · rw [if_neg (by unfold classDefault; omega), e]
      · rw [if_pos e, job]; simp [dflt, numberOr0]
    · omega
  rcases kindOfCode_eq_some.1 hk with ⟨-, rfl⟩ | ⟨-, rfl⟩ | ⟨-, rfl⟩
  · exact billed hj rfl (by decide)
  · exact billed hj rfl (by decide)
  · obtain ⟨job0, rfl, rfl, small⟩ := hj
    have given : a.cls ≠ classDefault := by unfold classDefault; omega
    exact ⟨hk, by simp [reserveJobRefusal, hk, EntryKind.billed], by simp [reserveJob, hk, EntryKind.billed],
      by simp [reserveClass, given], class_at, .inl small, fun _ => ⟨job0, given⟩⟩

/-- The fields of a RESERVE that resolves in its kettle lie in their ranges (R6). -/
theorem reserveBadValue_of_classFits {s : State} {c : Crane} {a : ReserveArgs} {k : EntryKind}
    (hk : kindOfCode a.kind = some k) (fits : a.classFits k) (order : a.f ≤ a.l) (inside : a.l < s.setup.nl)
    (tandem : a.tandem = 0 ∨ (a.tandem = 1 ∧ c = .craneA)) : reserveBadValue c a s = false := by
  obtain ⟨cls, dross⟩ := fits
  have tandemOk : (a.tandem != 0 && a.tandem != 1) = false ∧ (a.tandem == 1 && c == .craneB) = false := by
    rcases tandem with h | ⟨h, rfl⟩ <;> simp [h]
  have clsOk : (decide (15 < a.cls) && a.cls != classDefault) = false := by
    rcases cls with h | h
    · simp [Nat.not_lt.2 h]
    · simp [h]
  simpa [reserveBadValue, hk, tandemOk, clsOk, Nat.not_lt.2 order, Nat.not_le.2 inside] using dross

theorem EntryFlags.atReserve_eq (k : ClassEntry) :
    EntryFlags.atReserve k = { EntryFlags.empty with newSettings := decide (k.count = 0) } := rfl

/-- The writing crane's context after an admission is the admitted one (R9, R10, R31). -/
theorem reservedContext_of_resolves {s : State} {a : ReserveArgs} {k : EntryKind} {j : Option JobRef} {n : Nat}
    {cls : ClassEntry} (h : s.resolves a k j n cls) :
    reservedContext a s = admittedContext s k j n cls a (if a.tandem = 1 then .lead else .alone)
      (if a.tandem = 1 then some .joinPending else none) := by
  obtain ⟨kind, -, job, number, entry, -⟩ := h.names
  simp [reservedContext, admittedContext, kind, job, number, entry, EntryFlags.atReserve_eq]

/-- The job slots with an open dip more for the job that an entry was reserved for (R9). -/
def jobsWithDip (jobs : List JobSlot) : Option JobRef → List JobSlot
  | some r => jobs.modify r.slot fun x => { x with openDips := x.openDips + 1 }
  | none => jobs

theorem State.raiseOpenDip_eq (s : State) (j : Option JobRef) : s.raiseOpenDip j = { s with jobs := jobsWithDip s.jobs j } := by
  cases j <;> rfl

/-- A RESERVE that passes every test of R6 is taken by its rule. -/
theorem reserveRule_admitted {c : Crane} {body : List Byte} {s : State} {k : EntryKind} {j : Option JobRef} {n : Nat}
    {cls : ClassEntry} (idle : reserveBusy c (ReserveArgs.read body) s = false)
    (ok : s.reservable (ReserveArgs.read body) k j n cls)
    (tandem : (ReserveArgs.read body).tandem = 0 ∨ ((ReserveArgs.read body).tandem = 1 ∧ c = .craneA))
    (order : (ReserveArgs.read body).tandem = 0 → orderBroken c s.lanes s.setup.g
      { f := (ReserveArgs.read body).f, l := (ReserveArgs.read body).l } = false) :
    reserveRule c body s = .done (u16 s.issued) (s.admitCrane c (ReserveArgs.read body)) := by
  obtain ⟨run, resolves, ordered, inside, free⟩ := ok
  obtain ⟨kind, job, -, -, -, fits⟩ := resolves.names
  have admitted : reserveRefusal c (ReserveArgs.read body) s = none := reserveRefusal_eq_none.2
    ⟨idle, run, job, reserveBadValue_of_classFits kind fits ordered inside tandem, spanFree_of_free free, order⟩
  simp [reserveRule, admitted]

/-- What an admission of an entry of one crane leaves (R9). -/
theorem State.admitCrane_alone {s : State} {c : Crane} {a : ReserveArgs} {k : EntryKind} {j : Option JobRef} {n : Nat}
    {cls : ClassEntry} (h : s.resolves a k j n cls) (alone : a.tandem = 0) :
    s.admitCrane c a =
      { s with
        counter := nextNumber s.issued
        lanes := takeSpan s.lanes { f := a.f, l := a.l } (holderOf c false) s.issued
        cranes := s.cranes.set c (admittedContext s k j n cls a .alone none)
        jobs := jobsWithDip s.jobs j
        live := s.live ++ [{ entry := s.issued, holders := holdersOf c false }] } := by
  obtain ⟨-, -, job, -, -, -⟩ := h.names
  simp [State.admitCrane, alone, reservedContext_of_resolves h, State.raiseOpenDip_eq, job]

/-- What an admission of a tandem entry leaves (R10). -/
theorem State.admitCrane_tandem {s : State} {c : Crane} {a : ReserveArgs} {k : EntryKind} {j : Option JobRef} {n : Nat}
    {cls : ClassEntry} (h : s.resolves a k j n cls) (tandem : a.tandem = 1) :
    s.admitCrane c a =
      { s with
        counter := nextNumber s.issued
        lanes := takeSpan s.lanes { f := a.f, l := a.l } .tandem s.issued
        cranes := ⟨admittedContext s k j n cls a .lead (some .joinPending), partnerContext a s⟩
        jobs := jobsWithDip s.jobs j
        live := s.live ++ [{ entry := s.issued, holders := .both }]
        notices := s.notices.set .craneB ((s.notices.get .craneB).push (.joinWanted s.issued a.f a.l)) } := by
  obtain ⟨-, -, job, -, -, -⟩ := h.names
  simp [State.admitCrane, tandem, reservedContext_of_resolves h, State.raiseOpenDip_eq, job, State.notify, holderOf, holdersOf]

/-- A RESERVE of eight body bytes that its rule takes. -/
theorem exec_reserve_done {c : Crane} {body ans : List Byte} {s new : State} (takes : s.takes c.port = true)
    (len : body.length = 8) (own : reserveRule c body s = .done ans new) :
    exec (.reserve c.port body) s = .next (s.accepted c.port ans new) :=
  exec_crane_done rfl takes rfl (by simp [Request.lengthOk, len]) rfl own

/-- Settles O26: the tests of R6 pass, so the rule admits the entry, and what the admission leaves is said once. -/
theorem reserve_admits_an_entry_of_one_crane : Obligations.RESERVE_admits_an_entry_of_one_crane := by
  intro c body s k j n cls a takes len idle ok alone clear
  have busy : reserveBusy c a s = false := by simp [reserveBusy, idle, alone]
  have order : orderBroken c s.lanes s.setup.g { f := a.f, l := a.l } = false := by
    rw [← Bool.not_eq_true]
    cases c with
    | craneA =>
      rw [orderBroken_craneA]
      rintro ⟨i, hi, low⟩
      have high : a.l + s.setup.g + 1 ≤ i := clear i hi
      exact absurd low (Nat.not_lt.2 high)
    | craneB =>
      rw [orderBroken_craneB]
      rintro ⟨i, hi, high⟩
      have low : i + s.setup.g + 1 ≤ a.f := clear i hi
      exact absurd high (Nat.not_lt.2 low)
  have own := reserveRule_admitted busy ok (.inl alone) fun _ => order
  rw [State.admitCrane_alone ok.2.1 alone] at own
  exact (exec_reserve_done takes len own).trans (by cases c <;> cases j <;> rfl)

end Sys2Proof.Machine

namespace Sys2Proof.Machine

/-! ### JOIN (R11, R16) -/

/-- What the rule of JOIN answers crane B, whose JOIN is awaited (R11). -/
theorem joinRule_awaited {body : List Byte} {s : State} (reserved : s.cranes.craneB.state = .reserved)
    (awaited : s.cranes.craneB.join = some .joinPending) :
    joinRule .craneB body s =
      if s.cranes.craneB.entry = some (readU16 body) then
        .done [] { s with cranes :=
          { craneA := { s.cranes.craneA with join := some .joined }
            craneB := { s.cranes.craneB with join := some .joined, state := .linked } } }
      else .refused .badValue := by
  simp [joinRule, reserved, awaited]

/-- What the rule of JOIN answers crane B otherwise: LAPSED to an IDLE context with that lapse mark, else WRONG_STATE (R16). -/
theorem joinRule_late {body : List Byte} {s : State}
    (late : ¬(s.cranes.craneB.state = .reserved ∧ s.cranes.craneB.join = some .joinPending)) :
    joinRule .craneB body s = .refused
      (if s.cranes.craneB.state = .idle ∧ s.cranes.craneB.lapseMark = some (readU16 body) then .lapsed else .wrongState) := by
  simp only [joinRule, if_neg late]
  split <;> rfl

/-- A JOIN of two body bytes that its rule refuses. -/
theorem exec_join_refused {c : Crane} {body : List Byte} {s : State} {st : Status} (takes : s.takes c.port = true)
    (len : body.length = 2) (own : joinRule c body s = .refused st) :
    exec (.join c.port body) s = .next (s.replied c.port st []) :=
  exec_crane_refused rfl takes rfl (by simp [Request.lengthOk, len]) rfl own

/-- A JOIN of two body bytes that its rule takes. -/
theorem exec_join_done {c : Crane} {body ans : List Byte} {s new : State} (takes : s.takes c.port = true)
    (len : body.length = 2) (own : joinRule c body s = .done ans new) :
    exec (.join c.port body) s = .next (s.accepted c.port ans new) :=
  exec_crane_done rfl takes rfl (by simp [Request.lengthOk, len]) rfl own

/-- Settles O27: the admission is that of R10, and the rule of JOIN is read branch by branch. -/
theorem a_tandem_reserve_waits_for_join : Obligations.A_tandem_RESERVE_waits_for_JOIN := by
  constructor
  · intro body s k j n cls a takes len idleA idleB ok tandem
    have busy : reserveBusy .craneA a s = false := by simp [reserveBusy, idleA, idleB, PerCrane.get]
    have own := reserveRule_admitted busy ok (.inr ⟨tandem, rfl⟩) fun alone => by rw [tandem] at alone; cases alone
    rw [State.admitCrane_tandem ok.2.1 tandem] at own
    exact (exec_reserve_done (c := .craneA) takes len own).trans (by cases j <;> rfl)
  · intro body s len
    refine ⟨fun takes reserved awaited => ⟨fun same => ?_, fun other => ?_⟩, fun takes idle => ?_, fun takes busy notAwaited => ?_,
      fun takes => exec_join_refused (c := .craneA) takes len rfl⟩
    · exact exec_join_done (c := .craneB) takes len (by rw [joinRule_awaited reserved awaited, if_pos same])
    · exact exec_join_refused (c := .craneB) takes len (by rw [joinRule_awaited reserved awaited, if_neg other])
    · exact exec_join_refused (c := .craneB) takes len (by rw [joinRule_late (by simp [idle])]; simp [idle])
    · exact exec_join_refused (c := .craneB) takes len (by rw [joinRule_late notAwaited]; simp [busy])

/-! ### The refusals of RESERVE (R6) -/

theorem reserveBusy_iff {c : Crane} {a : ReserveArgs} {s : State} :
    reserveBusy c a s = false ↔
      (s.cranes.get c).state = .idle ∧ (a.tandem = 1 → ∀ d : Crane, (s.cranes.get d).state = .idle) := by
  have both : (∀ d : Crane, (s.cranes.get d).state = .idle) ↔
      s.cranes.craneA.state = .idle ∧ s.cranes.craneB.state = .idle :=
    ⟨fun h => ⟨h .craneA, h .craneB⟩, fun h d => by cases d <;> simp [PerCrane.get, h]⟩
  simp only [reserveBusy, both, Bool.or_eq_false_iff, Bool.and_eq_false_iff, bne_eq_false_iff_eq, beq_eq_false_iff_ne]
  tauto

/-- The kind of a RESERVE is billed to a job exactly for WORK and PROGRESSIVE (R5). -/
theorem billed_iff {n : Nat} : (∃ k, kindOfCode n = some k ∧ k.billed = true) ↔ n = 1 ∨ n = 2 := by
  simp only [kindOfCode_eq_some]
  constructor
  · rintro ⟨k, (⟨h, rfl⟩ | ⟨h, rfl⟩ | ⟨h, rfl⟩), hb⟩
    · exact .inl h
    · exact .inr h
    · cases hb
  · rintro (h | h)
    · exact ⟨.work, .inl ⟨h, rfl⟩, rfl⟩
    · exact ⟨.progressive, .inr (.inl ⟨h, rfl⟩), rfl⟩

/-- Step 3 of R6 for an entry that is billed to a number that names no slot. -/
theorem reserveJobRefusal_noJob {a : ReserveArgs} {s : State} (billed : a.kind = 1 ∨ a.kind = 2)
    (slot : s.slotOf a.job = none) : reserveJobRefusal a s = some .noJob := by
  obtain ⟨k, hk, hb⟩ := billed_iff.2 billed
  simp [reserveJobRefusal, hk, hb, slot]

/-- Step 3 of R6 for an entry that is billed to a number that names a slot. -/
theorem reserveJobRefusal_slot {a : ReserveArgs} {s : State} {i : Nat} (billed : a.kind = 1 ∨ a.kind = 2)
    (slot : s.slotOf a.job = some i) :
    reserveJobRefusal a s = if (s.job i).state = .opened then none else some .jobNotOpen := by
  obtain ⟨k, hk, hb⟩ := billed_iff.2 billed
  simp [reserveJobRefusal, hk, hb, slot]

/-- Step 3 of R6 passes an entry whose job is OPEN, and one that is billed to none. -/
theorem reserveJobRefusal_none {a : ReserveArgs} {s : State}
    (opened : a.kind = 1 ∨ a.kind = 2 → ∃ i : Nat, s.slotOf a.job = some i ∧ (s.job i).state = .opened) :
    reserveJobRefusal a s = none := by
  by_cases billed : a.kind = 1 ∨ a.kind = 2
  · obtain ⟨i, slot, state⟩ := opened billed
    rw [reserveJobRefusal_slot billed slot, if_pos state]
  · rw [← billed_iff] at billed
    cases hk : kindOfCode a.kind with
    | none => simp [reserveJobRefusal, hk]
    | some k => simp [reserveJobRefusal, hk, show k.billed ≠ true from fun hb => billed ⟨k, hk, hb⟩]

/-- A number that names no job names no slot (R6). -/
theorem State.slotOf_of_not_ok {s : State} {n : Nat} (h : n = 0 ∨ 999999 < n) : s.slotOf n = none := by
  have bad : jobNumberOk n = false := by
    simp only [jobNumberOk, Bool.and_eq_false_iff, decide_eq_false_iff_not]
    omega
  simp [State.slotOf, bad]

/-- Step 4 of R6, field by field. -/
theorem reserveBadValue_iff {c : Crane} {a : ReserveArgs} {s : State} :
    reserveBadValue c a s = true ↔
      a.l < a.f ∨ s.setup.nl ≤ a.l ∨ a.kind = 0 ∨ 3 < a.kind ∨ 1 < a.tandem ∨ (a.tandem = 1 ∧ c = .craneB) ∨
        (15 < a.cls ∧ a.cls ≠ 255) ∨ (a.kind = 3 ∧ (a.job ≠ 0 ∨ a.cls = 255)) := by
  have dross : kindOfCode a.kind = some .dross ↔ a.kind = 3 := by simp [kindOfCode_eq_some]
  have tandem : a.tandem ≠ 0 ∧ a.tandem ≠ 1 ↔ 1 < a.tandem := by omega
  simp only [reserveBadValue, Bool.or_eq_true, Bool.and_eq_true, decide_eq_true_eq, Option.isNone_iff_eq_none,
    kindOfCode_eq_none, bne_iff_ne, beq_iff_eq, dross, tandem, classDefault, or_assoc]

/-- A RESERVE of eight body bytes that R6 refuses changes nothing but the slot. -/
theorem exec_reserve_refused {c : Crane} {body : List Byte} {s : State} {st : Status} (takes : s.takes c.port = true)
    (len : body.length = 8) (h : reserveRefusal c (ReserveArgs.read body) s = some st) :
    exec (.reserve c.port body) s = .next (s.replied c.port st []) :=
  exec_crane_refused rfl takes rfl (by simp [Request.lengthOk, len]) rfl (by simp [reserveRule, h])

/-- Settles O28: each clause is the first branch of R6's chain that applies. -/
theorem reserve_refuses_held_lanes_before_a_broken_order :
    Obligations.RESERVE_refuses_held_lanes_before_a_broken_order := by
  intro c body s takes len lanes nl a refused idle billed jobOpen bad free
  have refuse : ∀ {st : Status}, reserveRefusal c a s = some st → refused st := exec_reserve_refused takes len
  have notBusy : idle → reserveBusy c a s = false := reserveBusy_iff.2
  have fields : ¬bad → reserveBadValue c a s = false := fun h => by rw [← Bool.not_eq_true, reserveBadValue_iff]; exact h
  refine ⟨fun busy => refuse ?_, fun hi mode => refuse ?_, fun hi run => ⟨fun hb unnamed => refuse ?_,
    fun i hb slot closed => refuse ?_, fun ho hbad => refuse ?_, fun ho hbad held => refuse ?_,
    fun ho hbad hf alone broken => refuse ?_⟩⟩
  · have isBusy : reserveBusy c a s = true := by rw [← Bool.not_eq_false, reserveBusy_iff]; exact busy
    simp [reserveRefusal, isBusy]
  · simp [reserveRefusal, notBusy hi, mode]
  · have slot : s.slotOf a.job = none := by
      rcases unnamed with zero | large | none
      · exact State.slotOf_of_not_ok (.inl zero)
      · exact State.slotOf_of_not_ok (.inr large)
      · exact none
    simp [reserveRefusal, notBusy hi, run, reserveJobRefusal_noJob hb slot]
  · simp [reserveRefusal, notBusy hi, run, reserveJobRefusal_slot hb slot, closed]
  · simp [reserveRefusal, notBusy hi, run, reserveJobRefusal_none ho, reserveBadValue_iff.2 hbad]
  · have taken : spanFree s.lanes { f := a.f, l := a.l } = false := by
      rw [← Bool.not_eq_true, spanFree_iff (by dsimp only; omega)]
      exact held
    simp [reserveRefusal, notBusy hi, run, reserveJobRefusal_none ho, fields hbad, taken]
  · have unheld : spanFree s.lanes { f := a.f, l := a.l } = true := spanFree_of_free hf
    have order : orderBroken c s.lanes s.setup.g { f := a.f, l := a.l } = true := by
      cases c with
      | craneA => exact orderBroken_craneA.2 broken
      | craneB => exact orderBroken_craneB.2 broken
    simp [reserveRefusal, notBusy hi, run, reserveJobRefusal_none ho, fields hbad, unheld, alone, order]

end Sys2Proof.Machine

namespace Sys2Proof.Machine

/-! ### Fields of an answer (R210) -/

@[simp] theorem length_le (n v : Nat) : (le n v).length = n := by
  induction n generalizing v with
  | zero => rfl
  | succ n ih => simp [le, ih]

@[simp] theorem length_u8 (v : Nat) : (u8 v).length = 1 := length_le 1 v
@[simp] theorem length_u16 (v : Nat) : (u16 v).length = 2 := length_le 2 v
@[simp] theorem length_u32 (v : Nat) : (u32 v).length = 4 := length_le 4 v
@[simp] theorem length_yesNo (b : Bool) : (yesNo b).length = 1 := length_le 1 _

@[simp] theorem Lane.length_bytes (ln : Lane) : ln.bytes.length = 3 := by simp [Lane.bytes]

/-- The lane records stand one after another, three bytes each, after the bytes before them (R25). -/
theorem laneBytes_at {head tail : List Byte} {lanes : List Lane} {i : Nat} {ln : Lane} (h : lanes[i]? = some ln) :
    ((head ++ lanes.flatMap Lane.bytes ++ tail).drop (head.length + 3 * i)).take 3 = ln.bytes := by
  obtain ⟨hi, rfl⟩ := List.getElem?_eq_some_iff.1 h
  have cut : lanes.flatMap Lane.bytes =
      (lanes.take i).flatMap Lane.bytes ++ (lanes[i].bytes ++ (lanes.drop (i + 1)).flatMap Lane.bytes) := by
    rw [← List.flatMap_cons, ← List.flatMap_append]
    simp
  have before : (head ++ (lanes.take i).flatMap Lane.bytes).length = head.length + 3 * i := by
    simp [Nat.min_eq_left (Nat.le_of_lt hi), Nat.mul_comm]
  rw [cut, ← List.append_assoc, List.append_assoc, List.drop_left' before, List.append_assoc,
    List.take_left' (Lane.length_bytes _)]

/-! ### The requests that read -/

/-- A request that its owning rule only reads for changes nothing but the slot. -/
theorem exec_told {i : Instr} {s : State} {p : Port} {r : Request} {body ans : List Byte}
    (write : exec i s = .next (s.writeRequest p r body)) (takes : s.takes p = true) (role : r.roles.permits p = true)
    (len : r.lengthOk body.length = true) (own : ownRule r p body s = .told ans) :
    exec i s = .next (s.replied p .ok ans) := by
  rw [write, State.writeRequest_told takes role len own]

/-- A request that its owning rule refuses changes nothing but the slot. -/
theorem exec_refused {i : Instr} {s : State} {p : Port} {r : Request} {body : List Byte} {st : Status}
    (write : exec i s = .next (s.writeRequest p r body)) (takes : s.takes p = true) (role : r.roles.permits p = true)
    (len : r.lengthOk body.length = true) (own : ownRule r p body s = .refused st) :
    exec i s = .next (s.replied p st []) := by
  rw [write, State.writeRequest_refused takes role len own]

@[simp] theorem readU8_singleton (b : Byte) : readU8 [b] = b.toNat := by simp [readU8, field, fromLe]

@[simp] theorem hookOfCode_hookCode (h : Crane) : hookOfCode (hookCode h) = some h := by cases h <;> rfl

theorem hookOfCode_eq_none {n : Nat} (h1 : n ≠ 1) (h2 : n ≠ 2) : hookOfCode n = none := by
  unfold hookOfCode
  split <;> simp_all

theorem jobNumberOk_iff {n : Nat} : jobNumberOk n = true ↔ 1 ≤ n ∧ n ≤ 999999 := by simp [jobNumberOk]

/-- READ JOB by slot (R143). -/
theorem readJobRule_slot {body : List Byte} {s : State} (sel : (ReadJobArgs.read body).selector = 1) :
    readJobRule body s = if 63 < (ReadJobArgs.read body).value then .refused .badValue
      else .told (s.jobBytes (ReadJobArgs.read body).value) := by
  simp [readJobRule, sel]

/-- READ JOB by a number that may name a job (R143). -/
theorem readJobRule_number {body : List Byte} {s : State} (sel : (ReadJobArgs.read body).selector = 2)
    (ok : 1 ≤ (ReadJobArgs.read body).value ∧ (ReadJobArgs.read body).value ≤ 999999) :
    readJobRule body s =
      (s.slotOf (ReadJobArgs.read body).value).elim (.refused .noJob) fun i => .told (s.jobBytes i) := by
  have named := jobNumberOk_iff.2 ok
  cases hs : s.slotOf (ReadJobArgs.read body).value <;> simp [readJobRule, sel, named, hs]

/-- READ JOB by a number that may name none, or by another selector (R143). -/
theorem readJobRule_bad {body : List Byte} {s : State} (sel : (ReadJobArgs.read body).selector ≠ 1)
    (bad : (ReadJobArgs.read body).selector = 2 → ¬(1 ≤ (ReadJobArgs.read body).value ∧ (ReadJobArgs.read body).value ≤ 999999)) :
    readJobRule body s = .refused .badValue := by
  by_cases two : (ReadJobArgs.read body).selector = 2
  · have unnamed : jobNumberOk (ReadJobArgs.read body).value = false := by
      rw [← Bool.not_eq_true, jobNumberOk_iff]; exact bad two
    simp [readJobRule, two, unnamed]
  · simp [readJobRule, sel, two]

/-- Settles O25: the owning rules of the reads answer and leave the state, and each refuses the values that name nothing. -/
theorem reads_change_nothing_but_the_slot : Obligations.Reads_change_nothing_but_the_slot := by
  intro p c s takes takesC takesO
  refine ⟨exec_told rfl takes rfl rfl rfl, ⟨_, exec_told rfl takes rfl rfl rfl, ?_⟩, ⟨_, exec_told rfl takes rfl rfl rfl, ?_⟩,
    ?_, ?_, ?_, ?_, ?_⟩
  · simp [Book.bytes, List.take_append, List.take_of_length_le]
  · intro i ln hln
    have lanes := laneBytes_at (head := u8 s.setup.nl ++ u8 s.setup.g ++ u8 s.setup.fzf ++ u8 s.setup.fzl ++
      u8 (firstOfTwo s.setup.confirmed)) (tail := lapseBytes s.cranes.craneA.entry (s.lapseOf .craneA) s.cranes.craneA.lapseMark ++
      lapseBytes s.cranes.craneB.entry (s.lapseOf .craneB) s.cranes.craneB.lapseMark ++
      lapseBytes s.feed.entry s.feed.lapse s.feed.lapseMark) hln
    simpa [Lane.bytes, numberOr0] using lanes
  · intro h b hb
    exact exec_told rfl takesC (by simp [Request.roles]) rfl (by simp [ownRule, byCrane_port, readHookRule, hb])
  · intro b h1 h2
    exact exec_refused rfl takesC (by simp [Request.roles]) rfl
      (by simp [ownRule, byCrane_port, readHookRule, hookOfCode_eq_none h1 h2])
  · intro b k small hk
    exact exec_told rfl takesO rfl rfl
      (by simp [ownRule, readClassRule, Nat.not_lt.2 small, State.classAt, List.getD_eq_getElem?_getD, hk])
  · intro b large
    exact exec_refused rfl takesO rfl rfl (by simp [ownRule, readClassRule, large])
  · intro body len a
    have lenOk : Request.readJob.lengthOk body.length = true := by simp [Request.lengthOk, len]
    have told : ∀ {ans : List Byte}, readJobRule body s = .told ans →
        exec (.readJob .office body) s = .next (s.replied .office .ok ans) := exec_told rfl takesO rfl lenOk
    have refused : ∀ {st : Status}, readJobRule body s = .refused st →
        exec (.readJob .office body) s = .next (s.replied .office st []) := exec_refused rfl takesO rfl lenOk
    refine ⟨fun sel small => told ?_, fun i sel pos small slot => told ?_, fun sel pos small slot => refused ?_, fun bad => refused ?_⟩
    · rw [readJobRule_slot sel, if_neg (Nat.not_lt.2 small)]
    · rw [readJobRule_number sel ⟨pos, small⟩, slot]; rfl
    · rw [readJobRule_number sel ⟨pos, small⟩, slot]; rfl
    · rcases bad with ⟨not1, not2⟩ | ⟨sel, large⟩ | ⟨sel, out⟩
      · exact readJobRule_bad not1 fun sel => absurd sel not2
      · rw [readJobRule_slot sel, if_pos large]
      · exact readJobRule_bad (fun one => by rw [sel] at one; cases one) fun _ ok => by
          have out : (ReadJobArgs.read body).value = 0 ∨ 999999 < (ReadJobArgs.read body).value := out
          omega

end Sys2Proof.Machine

namespace Sys2Proof.Machine

/-- A request that its owning rule takes is accepted (R205). -/
theorem exec_done {i : Instr} {s new : State} {p : Port} {r : Request} {body ans : List Byte}
    (write : exec i s = .next (s.writeRequest p r body)) (takes : s.takes p = true) (role : r.roles.permits p = true)
    (len : r.lengthOk body.length = true) (own : ownRule r p body s = .done ans new) :
    exec i s = .next (s.accepted p ans new) := by
  rw [write, State.writeRequest_done takes role len own]

/-! ### SETUP KETTLE and CLEAR FOUL (R4, R23) -/

theorem SetupArgs.inRange_iff {a : SetupArgs} :
    a.inRange = true ↔ 4 ≤ a.nl ∧ a.nl ≤ 16 ∧ a.g ≤ 3 ∧ a.fzf ≤ a.fzl ∧ a.fzl ≤ a.nl - 1 := by
  simp only [SetupArgs.inRange, Bool.and_eq_true, decide_eq_true_eq, and_assoc]

/-- SETUP KETTLE on an empty map in HELD (R4). -/
theorem setupKettleRule_empty {body : List Byte} {s : State} (held : s.mode = .held)
    (empty : ∀ ln ∈ s.lanes, ln.holder = .free) :
    setupKettleRule body s =
      if (SetupArgs.read body).inRange then
        .done [] { s with setup :=
          { nl := (SetupArgs.read body).nl, g := (SetupArgs.read body).g, fzf := (SetupArgs.read body).fzf
            fzl := (SetupArgs.read body).fzl, confirmed := true } }
      else .refused .badValue := by
  have none : s.lanes.any (fun ln => ln.holder != .free) = false := by simpa using empty
  simp only [setupKettleRule, held, none]
  cases (SetupArgs.read body).inRange <;> rfl

/-- SETUP KETTLE on a map that is not empty (R4). -/
theorem setupKettleRule_notEmpty {body : List Byte} {s : State} (held : s.mode = .held)
    (taken : ∃ ln ∈ s.lanes, ln.holder ≠ .free) : setupKettleRule body s = .refused .mapNotEmpty := by
  have some : s.lanes.any (fun ln => ln.holder != .free) = true := by simpa using taken
  simp [setupKettleRule, held, some]

/-- CLEAR FOUL of a number that some lane is FOUL with (R23). -/
theorem clearFoulRule_taken {body : List Byte} {s : State} (named : readU16 body ≠ 0)
    (foul : ∃ ln ∈ s.lanes, ln.holder = .foul ∧ ln.entry = some (readU16 body)) :
    clearFoulRule body s = .done []
      { s with lanes := clearFoulLanes s.lanes (readU16 body), foul := s.foul.filter fun it => it.entry != readU16 body } := by
  have some : s.lanes.any (fun ln => ln.holder == .foul && ln.entry == some (readU16 body)) = true := by simpa using foul
  simp [clearFoulRule, named, some]

/-- CLEAR FOUL of the number 0, or of one that no lane is FOUL with (R23). -/
theorem clearFoulRule_refused {body : List Byte} {s : State}
    (h : readU16 body = 0 ∨ ∀ ln ∈ s.lanes, ¬(ln.holder = .foul ∧ ln.entry = some (readU16 body))) :
    clearFoulRule body s = .refused .badValue := by
  unfold clearFoulRule
  dsimp only
  refine if_neg ?_
  rintro ⟨named, found⟩
  rcases h with zero | none
  · exact named zero
  · obtain ⟨ln, hln, foul⟩ := List.any_eq_true.1 found
    exact none ln hln (by simpa using foul)

/-- Settles O32: both rules are read branch by branch. -/
theorem setup_kettle_and_clear_foul_change_the_map : Obligations.SETUP_KETTLE_and_CLEAR_FOUL_change_the_map := by
  constructor
  · intro body s takes len a fits
    have lenOk : Request.setupKettle.lengthOk body.length = true := by simp [Request.lengthOk, len]
    refine ⟨fun mode => exec_refused rfl takes rfl lenOk (by simp [ownRule, setupKettleRule, mode]),
      fun held taken => exec_refused rfl takes rfl lenOk (setupKettleRule_notEmpty held taken),
      fun held empty => ⟨fun out => exec_refused rfl takes rfl lenOk ?_, fun inside => exec_done rfl takes rfl lenOk ?_⟩⟩
    · exact (setupKettleRule_empty held empty).trans (if_neg (by rwa [SetupArgs.inRange_iff]))
    · exact (setupKettleRule_empty held empty).trans (if_pos (by rwa [SetupArgs.inRange_iff]))
  · intro body s takes len n
    have lenOk : Request.clearFoul.lengthOk body.length = true := by simp [Request.lengthOk, len]
    exact ⟨fun zero => exec_refused rfl takes rfl lenOk (clearFoulRule_refused (.inl zero)),
      fun named foul => exec_done rfl takes rfl lenOk (clearFoulRule_taken named foul),
      fun none => exec_refused rfl takes rfl lenOk (clearFoulRule_refused (.inr none))⟩

/-! ### The feed zone (R12, R13, R19, R20, R112) -/

/-- What the end of a feed entry leaves (R15, R19, R20). -/
theorem State.endFeed_eq {s : State} {n : Nat} (entry : s.feed.entry = some n) (mark : Option Nat) :
    s.endFeed mark =
      { s with
        lanes := s.lanes.map fun ln => if ln.entry = some n then { holder := .free, entry := none } else ln
        feed := FeedContext.idle mark
        live := s.live.filter fun e => e.entry != n } := by
  simp [State.endFeed, entry, numberOr0, State.dropLive, freeEntry, Lane.free]

/-- The book replaced, with the feed-demand line judged (R116, R134). -/
theorem State.setBook_eq_withBook (s : State) (b : Book) : s.setBook b = s.withBook b := by
  unfold State.setBook State.judgeFeed State.withBook State.feedLevel
  have level : (b.state != .invalid) = decide (b.state ≠ .invalid) := by cases b.state <;> rfl
  simp only [level]
  split <;> simp_all [State.notify]

/-- Settles O31: the rule makes the flow, its record and the end of the entry, each said by its own lemma. -/
theorem charge_in_credits_the_bath : Obligations.CHARGE_IN_credits_the_bath := by
  intro s takes
  constructor
  · intro n mass reserved entry charge m
    have own : chargeInRule s = .done (massBytes m ++ yesNo (decide (30000 < mass)))
        (((s.withBook (s.book.chargeFlow m)).queueRecord (.charge n m (decide (30000 < mass)))).endFeed none) := by
      simp [chargeInRule, reserved, entry, charge, numberOr0, creditedCharge, State.setBook_eq_withBook, m]
    rw [State.endFeed_eq (n := n) (by exact entry)] at own
    refine (exec_done (i := .chargeIn .feed []) (r := .chargeIn) rfl takes rfl rfl own).trans ?_
    simp only [yesNo, decide_eq_true_eq]
    rfl
  · intro idle
    refine exec_refused rfl takes rfl rfl ?_
    cases hm : s.feed.lapseMark <;> simp [ownRule, chargeInRule, idle, lateAnswer, hm]

/-- CHARGE of an IDLE feed context, in its order of refusals (R12, R13). -/
theorem chargeRule_idle {body : List Byte} {s : State} (idle : s.feed.reserved = false) :
    chargeRule body s =
      if s.mode = .stopped then .refused .kettleNotRun
      else if readU16 body = 0 then .refused .badValue
      else if spanFree s.lanes { f := s.setup.fzf, l := s.setup.fzl } = false then .refused .lanesTaken
      else .done (u16 s.issued)
        { s with
          counter := nextNumber s.issued
          lanes := takeSpan s.lanes { f := s.setup.fzf, l := s.setup.fzl } .feed s.issued
          feed :=
            { entry := some s.issued, reserved := true, span := some { f := s.setup.fzf, l := s.setup.fzl }
              mass := some (readU16 body), lapseMark := none, lapse := some (s.settings.lapse * 10) }
          live := s.live ++ [{ entry := s.issued, holders := .feed }] } := by
  simp [chargeRule, idle, Setup.feedZone]

/-! ### Lapses (R14, R15, R190) -/

/-- A lapse timer that runs out is seen in the contexts alone. -/
theorem State.lapsesAt_congr {s t : State} (cranes : t.cranes = s.cranes) (feed : t.feed = s.feed) (c : Context) :
    t.lapsesAt c = s.lapsesAt c := by
  cases c <;> simp [State.lapsesAt, State.leadOf, cranes, feed]

/-- The writes of a lapse are made at once: none is left due (R190). -/
theorem State.lapse_saved {s new : State} (saved : new.unsaved = []) :
    ((s.endEvent new .lapse).writeDue .lapse).unsaved = [] := by
  have judged : (s.judgeStill new).unsaved = [] := by simp [saved]
  unfold State.endEvent State.writeLater State.writeDue State.judgeLines
  dsimp only
  rw [judged]
  split <;> rfl

/-- The state after a lapse whose reservation's end left `new`, its writes made (R15, R190). -/
def State.afterLapse (s new : State) : State := (s.endEvent new .lapse).writeDue .lapse

theorem State.afterLapse_phase (s new : State) : (s.afterLapse new).phase = new.phase := by
  unfold State.afterLapse
  rw [State.endEvent_frame]
  rfl

/-- After a lapse the timers that run out are those of the contexts it left. -/
theorem State.lapsesAt_afterLapse (s new : State) (c : Context) : (s.afterLapse new).lapsesAt c = new.lapsesAt c := by
  unfold State.afterLapse
  rw [State.endEvent_frame]
  exact State.lapsesAt_congr rfl rfl c

/-- A lapse before a load scan is a step of its own, durable before the scan (R14, R190). -/
theorem State.runOut_of_lapses {s : State} {c : Context} (h : s.lapsesAt c = true) :
    s.runOut c = s.afterLapse (s.lapseEntry c) := by simp [State.runOut, State.afterLapse, h]

/-- A load scan of a part with no write due begins with the lapses of the 100 ms before it (R14, R190). -/
theorem exec_loadScan_of_saved {s : State} (run : s.phase = .running) (saved : s.unsaved = []) (rA rB : Reading)
    (first : Crane) : exec (.loadScan rA rB first) s = .next (s.runOuts.loadScan rA rB first) := by
  show execLoadScan rA rB first s = _
  simp [execLoadScan, State.whileRunning, run, State.writeDue_nil _ saved]

/-- A load scan that the lapses of the 100 ms before it bring to the same state as one after a lapse is the same scan. -/
theorem exec_loadScan_afterLapse {s new : State} (run : s.phase = .running) (saved : s.unsaved = [])
    (newRun : new.phase = .running) (newSaved : new.unsaved = []) (outs : s.runOuts = (s.afterLapse new).runOuts)
    (rA rB : Reading) (first : Crane) :
    exec (.loadScan rA rB first) s = exec (.loadScan rA rB first) (s.afterLapse new) := by
  rw [exec_loadScan_of_saved run saved,
    exec_loadScan_of_saved ((s.afterLapse_phase new).trans newRun) (State.lapse_saved newSaved), outs]

/-- A report of a lapse of a part with no write due (R15). -/
theorem exec_lapseExpiry_of_saved {s : State} (run : s.phase = .running) (saved : s.unsaved = []) (c : Context) :
    exec (.lapseExpiry c) s = .next (s.endEvent (s.lapseEntry c) .lapse) := by
  show execLapseExpiry c s = _
  simp [execLapseExpiry, State.whileRunning, run, State.writeDue_nil _ saved]

theorem State.lapseEntry_of_not {s : State} {c : Context} (h : s.lapsesAt c = false) : s.lapseEntry c = s := by
  simp [State.lapseEntry, h]

theorem runsOut_some {t : Nat} : runsOut (some t) = decide (t ≤ 1) := rfl

/-- The feed entry's lapse leaves the feed context IDLE with its mark (R15). -/
theorem State.lapseEntry_feed {s : State} {n : Nat} (entry : s.feed.entry = some n) (h : s.lapsesAt .feed = true) :
    s.lapseEntry .feed =
      { s with
        lanes := s.lanes.map fun ln => if ln.entry = some n then { holder := .free, entry := none } else ln
        live := s.live.filter fun e => e.entry != n
        feed := FeedContext.idle (some n)
        notices := s.notices.set .feed ((s.notices.get .feed).push (.lapsed n)) } := by
  simp [State.lapseEntry, h, State.lapseFeed, State.endFeed_eq entry, entry, numberOr0, State.notify]

/-- Settles O30: the rules of CHARGE and CHARGE ABORT branch by branch, and the lapse of the feed entry. -/
theorem charge_takes_the_feed_zone_and_charge_abort_frees_it :
    Obligations.CHARGE_takes_the_feed_zone_and_CHARGE_ABORT_frees_it := by
  intro s
  refine ⟨?_, ?_, fun takes idle => exec_refused rfl takes rfl rfl ?_⟩
  · intro body takes len fits free refused
    have lenOk : Request.charge.lengthOk body.length = true := by simp [Request.lengthOk, len]
    have refuse : ∀ {st : Status}, chargeRule body s = .refused st → refused st := exec_refused rfl takes rfl lenOk
    have zone : spanFree s.lanes { f := s.setup.fzf, l := s.setup.fzl } = true ↔ free := spanFree_iff fits
    refine ⟨fun busy => refuse (by simp [chargeRule, busy]), fun idle stopped => refuse ?_,
      fun idle mode zero => refuse ?_, fun idle mode mass held => refuse ?_, fun idle mode mass hf => exec_done rfl takes rfl lenOk ?_⟩
    · rw [chargeRule_idle idle, if_pos stopped]
    · rw [chargeRule_idle idle, if_neg mode, if_pos zero]
    · rw [chargeRule_idle idle, if_neg mode, if_neg mass, if_pos (by rw [← Bool.not_eq_true, zone]; exact held)]
    · exact (chargeRule_idle idle).trans (by rw [if_neg mode, if_neg mass, if_neg (by rw [Bool.not_eq_false, zone]; exact hf)])
  · intro n reserved entry freed
    refine ⟨fun takes => exec_done rfl takes rfl rfl
      (by simp [ownRule, chargeAbortRule, reserved, State.endFeed_eq entry, freed]), ?_⟩
    intro t run saved timer lapsed
    have lapses : s.lapsesAt .feed = decide (t ≤ 1) := by simp [State.lapsesAt, reserved, timer, runsOut_some]
    have ended : t ≤ 1 → s.endEvent (s.lapseEntry .feed) .lapse = lapsed := fun late => by
      rw [State.lapseEntry_feed entry (by simp [lapses, late])]
    refine ⟨fun late => ?_, fun early => ?_, fun late notA notB rA rB first => ?_⟩
    · rw [exec_lapseExpiry_of_saved run saved, ended late]
    · rw [exec_lapseExpiry_of_saved run saved, State.lapseEntry_of_not (by simp [lapses, early])]
    · have lapse : s.lapsesAt .feed = true := by simp [lapses, late]
      have freedZone := State.lapseEntry_feed entry lapse
      refine exec_loadScan_afterLapse run saved (by exact run) (by exact saved) ?_ rA rB first
      rw [← freedZone]
      have rest : (s.afterLapse (s.lapseEntry .feed)).noLapse := fun c => by
        rw [State.lapsesAt_afterLapse, freedZone]
        cases c with
        | craneA => exact notA
        | craneB => exact notB
        | feed => rfl
      rw [State.runOuts_of_noLapse rest, State.runOuts, State.runOut_of_not notA, State.runOut_of_not notB,
        State.runOut_of_lapses lapse]
  · cases hm : s.feed.lapseMark <;> simp [ownRule, chargeAbortRule, idle, lateAnswer, hm]

end Sys2Proof.Machine

namespace Sys2Proof.Machine

/-! ### The end of an open dip (R141, R144, R159) -/

/-- A slot changed is the slot replaced, also where there is none. -/
theorem State.modifyJob_eq (s : State) (i : Nat) (f : JobSlot → JobSlot) :
    s.modifyJob i f = { s with jobs := s.jobs.set i (f (s.job i)) } := by
  have jobs : s.jobs.modify i f = s.jobs.set i (f (s.job i)) := by
    refine List.ext_getElem? fun k => ?_
    rw [List.getElem?_modify, List.getElem?_set]
    split
    · rename_i e
      subst e
      by_cases h : i < s.jobs.length
      · simp [h, State.job]
      · simp [h]
    · simp
  unfold State.modifyJob
  rw [jobs]

theorem State.job_of_set {s : State} {i : Nat} (h : i < s.jobs.length) (j : JobSlot) :
    ({ s with jobs := s.jobs.set i j } : State).job i = j := by
  simp [State.job, h]

/-- A slot that is not FREE is one of the table. -/
theorem State.slot_lt {s : State} {i : Nat} (h : (s.job i).state ≠ .free) : i < s.jobs.length := by
  by_contra out
  exact h (by simp [State.job, List.getD_eq_getElem?_getD, List.getElem?_eq_none (Nat.not_lt.1 out), JobSlot.vacant])

theorem hasPeriodEntry_eq_false {period : List PeriodEntry} {i : Nat} :
    hasPeriodEntry period i = false ↔ ∀ e ∈ period, e.slot ≠ i := by
  simp [hasPeriodEntry]

/-- A slot whose last open dip ends and that then closes (R144). -/
abbrev State.dipCloses (s : State) (i : Nat) : Prop :=
  (s.job i).state = .closing ∧ (s.job i).openDips ≤ 1 ∧ ∀ e ∈ s.period, e.slot ≠ i

/-- The slot with an open dip less passes the close test exactly when it closes (R144). -/
theorem State.closeTest_of_fallen (s : State) (i : Nat) :
    ({ s with jobs := s.jobs.set i { s.job i with openDips := (s.job i).openDips - 1 } } : State).closeTest i = true ↔
      s.dipCloses i := by
  by_cases h : i < s.jobs.length
  · simp only [State.closeTest, State.job_of_set h, Bool.and_eq_true, beq_iff_eq, Bool.not_eq_true', State.dipCloses,
      hasPeriodEntry_eq_false, Nat.sub_eq_zero_iff_le, and_assoc]
  · have none : s.jobs[i]? = none := List.getElem?_eq_none (Nat.not_lt.1 h)
    have still : s.jobs.set i { s.job i with openDips := (s.job i).openDips - 1 } = s.jobs :=
      List.set_eq_of_length_le (Nat.not_lt.1 h)
    rw [still]
    simp [State.closeTest, State.job, List.getD_eq_getElem?_getD, none, JobSlot.vacant]

/-- The fall of an open dip that closes its slot (R144). -/
theorem State.fallOpenDip_closes {s : State} {i : Nat} (h : s.dipCloses i) :
    s.fallOpenDip i =
      ({ s with jobs := s.jobs.set i { s.job i with openDips := (s.job i).openDips - 1, state := .closed } }, [i]) := by
  have inside : i < s.jobs.length := State.slot_lt (by rw [h.1]; decide)
  unfold State.fallOpenDip State.runCloseTest State.closeSlot
  rw [State.modifyJob_eq s, if_pos ((s.closeTest_of_fallen i).2 h), State.modifyJob_eq, State.job_of_set inside]
  simp

/-- The fall of an open dip that closes nothing. -/
theorem State.fallOpenDip_stays {s : State} {i : Nat} (h : ¬s.dipCloses i) :
    s.fallOpenDip i = ({ s with jobs := s.jobs.set i { s.job i with openDips := (s.job i).openDips - 1 } }, []) := by
  unfold State.fallOpenDip State.runCloseTest
  rw [State.modifyJob_eq s, if_neg (mt (s.closeTest_of_fallen i).1 h)]

/-- The state with an entry's own record queued, if it has one (R159). -/
def State.queueOwn (s : State) : Option RecordBody → State
  | some b => s.queueRecord b
  | none => s

/-- The end of an open dip, the entry's own record queued before those of the job that it closes (R141, R144, R159). -/
theorem State.fallOpenDip_announced (s : State) (i : Nat) (own : Option RecordBody) :
    ((s.fallOpenDip i).1.queueOwn own).announceAll (s.fallOpenDip i).2 = s.dipOver i (s.job i) s.period own := by
  unfold State.dipOver
  dsimp only
  by_cases h : s.dipCloses i
  · have inside : i < s.jobs.length := State.slot_lt (by rw [h.1]; decide)
    rw [State.fallOpenDip_closes h, decide_eq_true h]
    cases own <;> simp [State.queueOwn, State.announceAll, State.announceClosed, State.queueRecord, State.notify, State.job,
      inside, JobSlot.closedRecord, numberOr0]
  · rw [State.fallOpenDip_stays h, decide_eq_false h]
    cases own <;> rfl

/-- The end of an open dip without a record of its own (R15, R18). -/
theorem State.endDip_eq_withoutDip (s : State) (job : Option JobRef) : s.endDip job = s.withoutDip job := by
  cases job with
  | none => rfl
  | some j => exact s.fallOpenDip_announced j.slot none

/-- A dip that ends on a slot that was changed otherwise than in its state. -/
theorem State.dipOver_modifyJob (s : State) (i : Nat) {f : JobSlot → JobSlot} (state : ∀ j, (f j).state = j.state)
    (own : Option RecordBody) :
    (s.modifyJob i f).dipOver i ((s.modifyJob i f).job i) s.period own = s.dipOver i (f (s.job i)) s.period own := by
  rw [State.modifyJob_eq]
  by_cases h : i < s.jobs.length
  · rw [State.job_of_set h]
    simp [State.dipOver]
  · have out : ∀ j : JobSlot, s.jobs.set i j = s.jobs := fun j => List.set_eq_of_length_le (Nat.not_lt.1 h)
    have vacant : (s.job i).state ≠ .closing := fun e => h (State.slot_lt (by rw [e]; decide))
    simp [State.dipOver, out, state, vacant]

end Sys2Proof.Machine

namespace Sys2Proof.Machine

/-! ### RELEASE and the lapse of a crane's reservation (R14, R15, R18) -/

/-- The lanes of an entry freed, its context or contexts IDLE with a mark, and its number out of the live-entry list (R15, R18,
R26). -/
def State.entryEnded (s : State) (c : Crane) (n : Nat) (mark : Option Nat) : State :=
  { s with
    lanes := s.lanes.map fun ln => if ln.entry = some n then { holder := .free, entry := none } else ln
    cranes := if (s.cranes.get c).link = .lead then ⟨CraneContext.idle mark, CraneContext.idle mark⟩
      else s.cranes.set c (CraneContext.idle mark)
    live := s.live.filter fun e => e.entry != n }

theorem CraneContext.leads_iff {x : CraneContext} : x.leads = true ↔ x.link = .lead := by simp [CraneContext.leads]

/-- The context or contexts of an entry return to IDLE (R26). -/
theorem State.idleCranes_eq (s : State) (c : Crane) (x : CraneContext) (mark : Option Nat) :
    s.idleCranes c x.leads mark =
      { s with cranes := if x.link = .lead then ⟨CraneContext.idle mark, CraneContext.idle mark⟩
          else s.cranes.set c (CraneContext.idle mark) } := by
  unfold State.idleCranes
  by_cases h : x.link = .lead
  · rw [if_pos (CraneContext.leads_iff.2 h), if_pos h]
  · rw [if_neg (mt CraneContext.leads_iff.1 h), if_neg h]
    rfl

/-- A notice to an entry's crane, or to both cranes of a tandem entry (R53). -/
theorem State.notifyEntry_eq (s : State) (c : Crane) (x : CraneContext) (n : Notice) :
    s.notifyEntry c x.leads n =
      { s with notices :=
          if x.link = .lead then
            { s.notices with craneA := s.notices.craneA.push n, craneB := s.notices.craneB.push n }
          else s.notices.set c.port ((s.notices.get c.port).push n) } := by
  unfold State.notifyEntry
  by_cases h : x.link = .lead
  · rw [if_pos (CraneContext.leads_iff.2 h), if_pos h]
    rfl
  · rw [if_neg (mt CraneContext.leads_iff.1 h), if_neg h]
    rfl

/-- What the end of a reservation leaves (R15, R18). -/
theorem State.endReservation_eq {s : State} {c : Crane} {n : Nat} (entry : (s.cranes.get c).entry = some n)
    (mark : Option Nat) : s.endReservation c mark = (s.entryEnded c n mark).withoutDip (s.cranes.get c).job := by
  unfold State.endReservation
  dsimp only
  rw [State.idleCranes_eq, State.endDip_eq_withoutDip, entry]
  rfl

/-- The end of an open dip leaves everything but the job table, the records and the notices. -/
theorem State.withoutDip_frame (s : State) (job : Option JobRef) :
    s.withoutDip job =
      { s with jobs := (s.withoutDip job).jobs, records := (s.withoutDip job).records, notices := (s.withoutDip job).notices } := by
  cases job <;> rfl

/-- The entry context of a crane. -/
def contextOf : Crane → Context
  | .craneA => .craneA
  | .craneB => .craneB

/-- The lapse timer that a crane's context reports is that of the lead (R14). -/
theorem State.lapsesAt_contextOf (s : State) (d : Crane) :
    s.lapsesAt (contextOf d) =
      ((s.cranes.get (s.leadOf d)).state == .reserved && runsOut (s.cranes.get (s.leadOf d)).lapse) := by
  cases d <;> rfl

theorem State.lapseEntry_contextOf {s : State} {d : Crane} (h : s.lapsesAt (contextOf d) = true) :
    s.lapseEntry (contextOf d) = s.lapseCrane d := by
  unfold State.lapseEntry
  rw [if_pos h]
  cases d <;> rfl

theorem State.leadOf_own {s : State} {c : Crane} (h : (s.cranes.get c).link ≠ .linked) : s.leadOf c = c := if_neg h

/-- Crane A's own context holds the timer of its entry, whatever its link. -/
theorem State.leadOf_craneA (s : State) : s.leadOf .craneA = .craneA := by
  unfold State.leadOf
  split <;> rfl

/-- What a lapse of a crane's reservation leaves, before the end of its step (R15). -/
def State.lapsedBy (s : State) (c : Crane) (n : Nat) : State :=
  let u := (s.entryEnded c n (some n)).withoutDip (s.cranes.get c).job
  { u with
    notices :=
      if (s.cranes.get c).link = .lead then
        { u.notices with craneA := u.notices.craneA.push (.lapsed n), craneB := u.notices.craneB.push (.lapsed n) }
      else u.notices.set c.port ((u.notices.get c.port).push (.lapsed n)) }

theorem State.lapseCrane_eq {s : State} {c d : Crane} {n : Nat} (lead : s.leadOf d = c)
    (entry : (s.cranes.get c).entry = some n) : s.lapseCrane d = s.lapsedBy c n := by
  unfold State.lapseCrane
  dsimp only
  rw [lead, State.notifyEntry_eq, entry, State.endReservation_eq entry]
  rfl

theorem State.lapsedBy_frame (s : State) (c : Crane) (n : Nat) :
    (s.lapsedBy c n).phase = s.phase ∧ (s.lapsedBy c n).unsaved = s.unsaved ∧ (s.lapsedBy c n).feed = s.feed ∧
      (s.lapsedBy c n).cranes = (s.entryEnded c n (some n)).cranes := by
  unfold State.lapsedBy
  rw [State.withoutDip_frame]
  exact ⟨rfl, rfl, rfl, rfl⟩

/-- A crane whose reservation has lapsed has no lapse timer that runs out: it is IDLE and no tandem entry links it. -/
theorem State.not_lapsesAt_lapsedBy (s : State) (c : Crane) (n : Nat) : (s.lapsedBy c n).lapsesAt (contextOf c) = false := by
  obtain ⟨-, -, -, cranes⟩ := s.lapsedBy_frame c n
  have idle : (s.lapsedBy c n).cranes.get c = CraneContext.idle (some n) := by
    rw [cranes]
    unfold State.entryEnded
    dsimp only
    split
    · cases c <;> rfl
    · simp
  rw [State.lapsesAt_contextOf, State.leadOf_own (by rw [idle]; simp [CraneContext.idle]), idle]
  rfl

/-- The lapse of a reservation that is not a lead's leaves the other crane's context. -/
theorem State.lapsesAt_craneA_lapsedBy_craneB {s : State} (n : Nat) (alone : s.cranes.craneB.link ≠ .lead) :
    (s.lapsedBy .craneB n).lapsesAt .craneA = s.lapsesAt .craneA := by
  obtain ⟨-, -, -, cranes⟩ := s.lapsedBy_frame .craneB n
  have same : (s.lapsedBy .craneB n).cranes.get .craneA = s.cranes.get .craneA := by
    rw [cranes]
    unfold State.entryEnded
    dsimp only
    rw [if_neg (by exact alone)]
    rfl
  have report := fun t : State => t.lapsesAt_contextOf .craneA
  simp only [State.leadOf_craneA, contextOf] at report
  rw [report, report, same]

/-- A load scan that finds a crane's lapse timer run out is the scan after that lapse (R14, R190). -/
theorem State.runOuts_of_lapse {s : State} {c : Crane} {n : Nat} (tandem : s.tandemLinked)
    (lapse : s.lapsesAt (contextOf c) = true) (ends : s.lapseEntry (contextOf c) = s.lapsedBy c n)
    (first : c = .craneB → s.lapsesAt .craneA = false) : s.runOuts = (s.afterLapse (s.lapsedBy c n)).runOuts := by
  have done : (s.afterLapse (s.lapsedBy c n)).lapsesAt (contextOf c) = false := by
    rw [State.lapsesAt_afterLapse, State.not_lapsesAt_lapsedBy]
  have out : s.runOut (contextOf c) = s.afterLapse (s.lapsedBy c n) := by rw [State.runOut_of_lapses lapse, ends]
  unfold State.runOuts
  cases c with
  | craneA => rw [show s.runOut .craneA = _ from out, State.runOut_of_not (c := .craneA) done]
  | craneB =>
    obtain ⟨-, notLead, -⟩ := tandem
    have notA : (s.afterLapse (s.lapsedBy .craneB n)).lapsesAt .craneA = false := by
      rw [State.lapsesAt_afterLapse, State.lapsesAt_craneA_lapsedBy_craneB n notLead, first rfl]
    rw [State.runOut_of_not (first rfl), show s.runOut .craneB = _ from out, State.runOut_of_not notA,
      State.runOut_of_not (c := .craneB) done]

/-- The context that a lapse is reported of leads to the crane whose entry it is (R14). -/
theorem State.leadOf_reported {s : State} {c : Crane} {ctx : Context} (tandem : s.tandemLinked)
    (link : (s.cranes.get c).link ≠ .linked)
    (h : ctx = contextOf c ∨ (ctx = .craneB ∧ (s.cranes.get c).link = .lead)) :
    ∃ d : Crane, ctx = contextOf d ∧ s.leadOf d = c := by
  rcases h with rfl | ⟨rfl, lead⟩
  · exact ⟨c, rfl, State.leadOf_own link⟩
  · obtain ⟨-, notLead, both, -⟩ := tandem
    cases c with
    | craneA => exact ⟨.craneB, rfl, if_pos (both.1 lead)⟩
    | craneB => exact absurd lead notLead

/-- The refusals of RELEASE (R18). -/
theorem exec_release_refused {c : Crane} {s : State} {st : Status} (takes : s.takes c.port = true)
    (own : releaseRule c s = .refused st) : exec (.release c.port []) s = .next (s.replied c.port st []) :=
  exec_crane_refused rfl takes rfl rfl rfl own

theorem lateAnswer_eq (mark : Option Nat) : lateAnswer mark = if mark = none then .wrongState else .lapsed := by
  cases mark <;> rfl

/-- Settles O29: RELEASE and the lapse end the reservation alike; a load scan takes the lapse before itself. -/
theorem release_and_lapse_end_a_reservation : Obligations.RELEASE_and_lapse_end_a_reservation := by
  intro c s x
  constructor
  · intro n tandem reserved entry link ended
    have same : ∀ mark, ended mark = (s.entryEnded c n mark).withoutDip x.job := fun _ => rfl
    constructor
    · intro takes
      refine exec_crane_done (rule := fun c => releaseRule c s) rfl takes rfl rfl rfl ?_
      rw [same, ← State.endReservation_eq entry]
      simp [releaseRule, show (s.cranes.get c).state = .reserved from reserved, show (s.cranes.get c).link ≠ .linked from link]
    · intro ctx t run saved timer reported u lapsed
      have reports : ctx = contextOf c ∨ (ctx = .craneB ∧ (s.cranes.get c).link = .lead) := by cases c <;> exact reported
      obtain ⟨d, rfl, lead⟩ := State.leadOf_reported tandem link reports
      have timerOf : ∀ d : Crane, s.leadOf d = c → s.lapsesAt (contextOf d) = decide (t ≤ 1) := fun d lead => by
        rw [State.lapsesAt_contextOf, lead, reserved, timer]
        rfl
      have ends : t ≤ 1 → ∀ d : Crane, s.leadOf d = c → s.lapseEntry (contextOf d) = s.lapsedBy c n := fun late d lead => by
        rw [State.lapseEntry_contextOf ((timerOf d lead).trans (decide_eq_true late)), State.lapseCrane_eq lead entry]
      refine ⟨fun late => ?_, fun early => ?_, fun late first rA rB which => ?_⟩
      · rw [exec_lapseExpiry_of_saved run saved, ends late d lead]
        rfl
      · rw [exec_lapseExpiry_of_saved run saved,
          State.lapseEntry_of_not ((timerOf d lead).trans (decide_eq_false (Nat.not_le.2 early)))]
      · obtain ⟨newRun, newSaved, -, -⟩ := s.lapsedBy_frame c n
        have own := State.leadOf_own link
        exact exec_loadScan_afterLapse run saved (newRun.trans run) (newSaved.trans saved)
          (State.runOuts_of_lapse tandem ((timerOf c own).trans (decide_eq_true late)) (ends late c own) first) rA rB which
  · intro takes
    refine ⟨fun linked => exec_release_refused takes ?_, fun idle => exec_release_refused takes ?_,
      fun notIdle notLinked notReserved => exec_release_refused takes ?_⟩
    · rcases linked with linked | ⟨reserved, linked⟩
      · simp [releaseRule, show (s.cranes.get c).state = .linked from linked]
      · simp [releaseRule, show (s.cranes.get c).state = .reserved from reserved,
          show (s.cranes.get c).link = .linked from linked]
    · rw [← lateAnswer_eq]
      simp [releaseRule, show (s.cranes.get c).state = .idle from idle, x]
    · unfold releaseRule
      dsimp only
      split <;> first | rfl | contradiction

end Sys2Proof.Machine

namespace Sys2Proof.Machine

/-! ### The black mass (R65) -/

theorem Hook.black_fault {h : Hook} (t : Settings) (fault : h.health = .fault) : h.black t = none := if_pos fault

theorem Hook.black_steady {h : Hook} {m : Int} (t : Settings) (good : h.health = .good) (steady : h.steady = some m) :
    h.black t = some m := by simp [Hook.black, good, steady]

theorem Hook.black_unsteady {h : Hook} (t : Settings) (good : h.health = .good) (unsteady : h.steady = none) :
    h.black t = if h.heldAge ≤ t.holdAge then h.held else none := by simp [Hook.black, good, unsteady]

/-! ### LOWER (R34 to R37, R66) -/

/-- The refusals of LOWER before those of the mode and the temperature (R34, R36). -/
theorem exec_lower_refused {c : Crane} {s : State} {st : Status} (takes : s.takes c.port = true)
    (h : lowerRefusal c s = some st) : exec (.lower c.port []) s = .next (s.replied c.port st []) :=
  exec_crane_refused (rule := fun c => lowerRule c s) rfl takes rfl rfl rfl (by simp [lowerRule, h])

/-- LOWER passes its tests in the two states from which lowering is the next step (R34, R36). -/
theorem lowerRefusal_none {c : Crane} {s : State} (link : (s.cranes.get c).link ≠ .linked) (run : s.mode = .run)
    (temp : s.tempOk = true)
    (origin : ((s.cranes.get c).state = .reserved ∧ (s.cranes.get c).join ≠ some .joinPending) ∨
      (s.cranes.get c).state = .readySecond) : lowerRefusal c s = none := by
  rcases origin with ⟨reserved, joined⟩ | second
  · simp [lowerRefusal, notLead, link, run, temp, reserved, joined]
  · simp [lowerRefusal, notLead, link, run, temp, second]

/-- LOWER of end 1 takes the black mass (R35). -/
theorem lowerRule_first {c : Crane} {s : State} (ok : lowerRefusal c s = none) (first : (s.cranes.get c).state ≠ .readySecond) :
    lowerRule c s = .done (optional 4 massBytes (s.blackMass c (s.cranes.get c).leads))
      (s.setCrane c ((s.cranes.get c).lowerFirst (s.blackMass c (s.cranes.get c).leads)
        (blackFlags (s.cranes.get c).flags (s.hooksOf c (s.cranes.get c).leads) s.settings))) := by
  simp [lowerRule, ok, first]

/-- LOWER of end 2 keeps the black mass (R37). -/
theorem lowerRule_second {c : Crane} {s : State} (ok : lowerRefusal c s = none) (second : (s.cranes.get c).state = .readySecond) :
    lowerRule c s = .done (optional 4 massBytes (s.cranes.get c).black) (s.setCrane c (s.cranes.get c).lowerSecond) := by
  simp [lowerRule, ok, second]

/-- Settles O34: the rows of R65, the refusals of LOWER in their order, and its two ends. -/
theorem lower_takes_the_black_mass_at_end_1_only : Obligations.LOWER_takes_the_black_mass_at_end_1_only := by
  refine ⟨fun h t => ⟨Hook.black_fault t, fun m => Hook.black_steady t, fun m good unsteady held young => ?_,
    fun good unsteady old => ?_⟩, ?_, ?_⟩
  · rw [Hook.black_unsteady t good unsteady, if_pos young, held]
  · rw [Hook.black_unsteady t good unsteady]
    rcases old with none | old
    · simp [none]
    · rw [if_neg (Nat.not_le.2 old)]
  · intro c s takes x
    refine ⟨fun linked => exec_lower_refused takes ?_, fun link idle => exec_lower_refused takes ?_,
      fun link notIdle notSecond pending => exec_lower_refused takes ?_⟩
    · simp [lowerRefusal, notLead, show (s.cranes.get c).link = .linked from linked]
    · cases hm : (s.cranes.get c).lapseMark <;>
        simp [lowerRefusal, notLead, show (s.cranes.get c).link ≠ .linked from link,
          show (s.cranes.get c).state = .idle from idle, hm]
    · have wrong : ((s.cranes.get c).state ≠ .reserved ∧ (s.cranes.get c).state ≠ .readySecond) ∨
          ((s.cranes.get c).state = .reserved ∧ (s.cranes.get c).join = some .joinPending) := by
        by_cases reserved : (s.cranes.get c).state = .reserved
        · exact .inr ⟨reserved, pending reserved⟩
        · exact .inl ⟨reserved, notSecond⟩
      have idle : ¬((s.cranes.get c).state = .idle ∧ (s.cranes.get c).lapseMark.isSome = true) := fun h => notIdle h.1
      simp only [lowerRefusal, notLead, beq_iff_eq, if_neg (show (s.cranes.get c).link ≠ .linked from link), if_neg idle,
        if_pos wrong]
  · intro c s takes link run temp x
    refine ⟨fun reserved joined => ?_, fun second => ?_⟩
    · have ok := lowerRefusal_none link run temp (.inl ⟨reserved, joined⟩)
      have own := lowerRule_first ok (by rw [show (s.cranes.get c).state = .reserved from reserved]; decide)
      refine ⟨s.blackMass c x.leads, (s.hooksOf c x.leads).any Hook.blackNoMass,
        (s.hooksOf c x.leads).any fun h => h.blackUnsteady s.settings, fun alone => ?_, fun lead => ?_,
        exec_crane_done (rule := fun c => lowerRule c s) rfl takes rfl rfl rfl own⟩
      · simp [State.blackMass, State.hooksOf, CraneContext.leads, alone, Hook.blackNoMass, Hook.blackUnsteady]
      · have leads : x.leads = true := CraneContext.leads_iff.mpr lead
        have hooks : s.hooksOf c x.leads = [s.hooks.craneA, s.hooks.craneB] := by rw [leads]; rfl
        refine ⟨by rw [leads]; rfl, ?_, ?_⟩
        · simp [hooks, Hook.blackNoMass]
        · simp [hooks, Hook.blackUnsteady]
    · have ok := lowerRefusal_none link run temp (.inr second)
      exact exec_crane_done (rule := fun c => lowerRule c s) rfl takes rfl rfl rfl (lowerRule_second ok second)

/-! ### DROPPED (R22, R51, R148) -/

/-- The changes of a DROPPED before those of its job: the lanes FOUL with the FOUL item, the context or contexts IDLE, the number
out of the live-entry list (R22, R51). -/
def State.fallen (s : State) (c : Crane) (n f l : Nat) : State :=
  { s with
    lanes := s.lanes.map fun ln => if ln.entry = some n then { holder := .foul, entry := some n } else ln
    foul := s.foul ++ [{ entry := n, f := f, l := l }]
    cranes := if (s.cranes.get c).link = .lead then ⟨CraneContext.idle none, CraneContext.idle none⟩
      else s.cranes.set c (CraneContext.idle none)
    live := s.live.filter fun e => e.entry != n }

/-- What a DROPPED leaves, the job's part apart (R51). -/
theorem State.dropPiece_eq {s : State} {c : Crane} {n f l : Nat} (entry : (s.cranes.get c).entry = some n)
    (span : (s.cranes.get c).span = some { f := f, l := l }) :
    s.dropPiece c =
      (((s.fallen c n f l).dropJob (s.cranes.get c).job).1.queueRecord
        (.dropped n ((s.cranes.get c).job.map JobRef.number) f l)).announceAll
          ((s.fallen c n f l).dropJob (s.cranes.get c).job).2 := by
  unfold State.dropPiece
  dsimp only
  rw [State.idleCranes_eq, entry, span]
  rfl

/-- The job's part of a DROPPED: its dropped count rises and its open dip ends (R148). -/
theorem State.dropJob_announced (s : State) (r : JobRef) (own : RecordBody) :
    ((s.dropJob (some r)).1.queueRecord own).announceAll (s.dropJob (some r)).2 =
      s.dipOver r.slot { s.job r.slot with droppedCount := min ((s.job r.slot).droppedCount + 1) 65535 } s.period (some own) := by
  refine (State.fallOpenDip_announced _ r.slot (some own)).trans (s.dipOver_modifyJob r.slot ?_ (some own))
  exact fun _ => rfl

theorem moveRefusal_of_from {c : Crane} {s : State} {states : List EntryState} (link : (s.cranes.get c).link ≠ .linked)
    (origin : (s.cranes.get c).state ∈ states) : moveRefusal c s states = none := by
  simp [moveRefusal, notLead, link, origin]

theorem moveRefusal_of_not_from {c : Crane} {s : State} {states : List EntryState} (link : (s.cranes.get c).link ≠ .linked)
    (origin : (s.cranes.get c).state ∉ states) : moveRefusal c s states = some .wrongState := by
  simp [moveRefusal, notLead, link, origin]

/-- Settles O40: the refusal of every other state, and the changes of a DROPPED with its job and without one. -/
theorem dropped_turns_the_lanes_foul : Obligations.DROPPED_turns_the_lanes_FOUL := by
  constructor
  · intro c s takes link notLowering notImmersed notWithdrawing
    refine exec_crane_refused (rule := fun c => droppedRule c s) rfl takes rfl rfl rfl ?_
    simp [droppedRule, moveRefusal_of_not_from link, notLowering, notImmersed, notWithdrawing]
  · intro c s n f l takes link x state entry span fallen
    have ok : moveRefusal c s [.lowering, .immersed, .withdrawing] = none :=
      moveRefusal_of_from link (by simpa using state)
    have own : droppedRule c s = .done [] (s.dropPiece c) := by simp [droppedRule, ok]
    rw [State.dropPiece_eq entry span] at own
    refine ⟨fun r job => ?_, fun job => ?_⟩
    · rw [show (s.cranes.get c).job = some r from job, State.dropJob_announced] at own
      exact exec_crane_done (rule := fun c => droppedRule c s) rfl takes rfl rfl rfl own
    · rw [show (s.cranes.get c).job = none from job] at own
      exact exec_crane_done (rule := fun c => droppedRule c s) rfl takes rfl rfl rfl own

end Sys2Proof.Machine

namespace Sys2Proof.Machine

@[simp] theorem PerCrane.set_get {α : Type} (x : PerCrane α) (c : Crane) : x.set c (x.get c) = x := by cases c <;> rfl

/-! ### The end of an event that changes no item of the store (R122, R169, R190) -/

/-- A step that leaves the working copies writes nothing (R190). -/
theorem stepWrites_self (x : StoreImage) : stepWrites x x = [] := by
  have jobs : x.unclosed x = x := by
    have same : x.jobs.zipIdx.map (fun p => if p.1.state = .closed then
        { p.1 with state := ((x.jobs[p.2]?).map JobSlot.state).getD .closed } else p.1) = x.jobs := by
      refine List.ext_getElem (by simp) fun i _ h => ?_
      simp [List.getElem?_eq_getElem h]
    rw [StoreImage.unclosed_eq]
    unfold StoreImage.unclosed
    rw [same]
  simp [stepWrites, jobs, differing]

/-- An event that leaves the working copies and does not move stillness ends with the lines judged. -/
theorem State.endEvent_of_still {old new : State} (d : Deadline) (image : new.image = old.image)
    (still : new.still = old.still) : old.endEvent new d = new.judgeLines := by
  have judged : old.judgeStill new = new := by
    unfold State.judgeStill
    rw [still]
    cases old.still <;> rfl
  unfold State.endEvent State.writeLater
  rw [judged, image, stepWrites_self]
  rfl

/-! ### The 100 ms before a load scan (R14, R40, R41, log 3) -/

/-- An end's timer has reached its immersion limit, which has not expired yet (R41). -/
def CraneContext.overdue (x : CraneContext) : Bool := x.canExpire && x.snapshot.any fun k => decide (k.immLimit ≤ x.immTimer)

/-- The context after the expiry of an end that is overdue (R41). -/
def CraneContext.expired (x : CraneContext) : CraneContext :=
  if x.overdue then { x with limitTaken := true, flags := x.flags.takeOverdip, demand := x.demand.takeOverdip } else x

/-- The notice queues after a notice to a crane, or to both cranes while `tandem` holds (R53, R59). -/
def toldTo (ns : PerPort NoticeQueue) (tandem : Bool) (c : Crane) (n : Notice) : PerPort NoticeQueue :=
  if tandem then { ns with craneA := ns.craneA.push n, craneB := ns.craneB.push n }
  else ns.set c.port ((ns.get c.port).push n)

theorem State.notifyEntry_toldTo (s : State) (c : Crane) (tandem : Bool) (n : Notice) :
    s.notifyEntry c tandem n = { s with notices := toldTo s.notices tandem c n } := by
  cases tandem <;> rfl

/-- The notice queues after the expiry of a crane's end, where it is overdue (R41). -/
def toldExpired (ns : PerPort NoticeQueue) (c : Crane) (x : CraneContext) : PerPort NoticeQueue :=
  if x.overdue then toldTo ns x.leads c (.overdip (numberOr0 x.entry) (numberOr0 x.endNo)) else ns

/-- The expiry of a crane's end whose timer stands at its limit or above it (R41). -/
theorem State.expireWithin_zero (s : State) (c : Crane) :
    s.expireWithin c 0 =
      { s with
        cranes := s.cranes.set c (s.cranes.get c).expired
        notices := toldExpired s.notices c (s.cranes.get c) } := by
  unfold State.expireWithin CraneContext.expired toldExpired CraneContext.overdue
  dsimp only
  cases hk : (s.cranes.get c).snapshot with
  | none => simp
  | some k =>
    simp only [Option.any_some, Nat.add_zero]
    split
    · rename_i h
      simp only [Bool.and_eq_true, decide_eq_true_eq] at h
      rw [State.notifyEntry_toldTo]
      simp [CraneContext.expireLimit, Nat.max_eq_left h.2, State.setCrane, hk]
    · simp

/-- What the 100 ms before a load scan leave: the timers moved, and the overdue ends expired, crane A's first (log 3, log 4). -/
theorem State.elapse_eq (s : State) :
    s.elapse =
      { s.pass with
        cranes := ⟨s.cranes.craneA.pass.expired, s.cranes.craneB.pass.expired⟩
        notices := toldExpired (toldExpired s.notices .craneA s.cranes.craneA.pass) .craneB s.cranes.craneB.pass } := by
  unfold State.elapse
  rw [State.expireWithin_zero, State.expireWithin_zero]
  rfl

/-! ### The hooks of a load scan (R56, R59, R72) -/

/-- A watch after its hook or hooks entered FAULT, where one did (R72). -/
def Watch.shutIf (w : Watch) (fault : Bool) : Watch := if fault then w.shutIt else w

@[simp] theorem Watch.shutIt_bothHooks (w : Watch) : w.shutIt.bothHooks = w.bothHooks := by
  unfold Watch.shutIt
  split <;> rfl

@[simp] theorem Watch.shutIf_bothHooks (w : Watch) (b : Bool) : (w.shutIf b).bothHooks = w.bothHooks := by
  cases b <;> simp [Watch.shutIf]

@[simp] theorem Watch.shutIt_shutIt (w : Watch) : w.shutIt.shutIt = w.shutIt := by
  unfold Watch.shutIt
  split
  · rfl
  · rw [if_pos (.inr rfl)]

theorem Watch.shutIf_shutIf (w : Watch) (a b : Bool) : (w.shutIf a).shutIf b = w.shutIf (a || b) := by
  cases a <;> cases b <;> simp [Watch.shutIf]

/-- What one hook's stages of a load scan do to the hooks, the watches and the notices (R56, R59, R72). -/
theorem State.scanHook_eq (s : State) (hook : Crane) (r : Reading) :
    s.scanHook hook r =
      { s with
        hooks := s.hooks.set hook ((s.hooks.get hook).scan s.settings r)
        watches :=
          ⟨s.watches.craneA.shutIf (faultedAt (s.hooks.get hook) ((s.hooks.get hook).scan s.settings r) &&
              s.watches.craneA.uses .craneA hook),
            s.watches.craneB.shutIf (faultedAt (s.hooks.get hook) ((s.hooks.get hook).scan s.settings r) &&
              s.watches.craneB.uses .craneB hook)⟩
        notices :=
          if faultedAt (s.hooks.get hook) ((s.hooks.get hook).scan s.settings r) then
            toldTo s.notices s.cranes.craneA.leads hook (.hookFault hook)
          else s.notices } := by
  unfold State.scanHook
  dsimp only
  cases faultedAt (s.hooks.get hook) ((s.hooks.get hook).scan s.settings r) with
  | false => simp [Watch.shutIf]
  | true =>
    unfold State.faultHook State.noticeFault
    dsimp only
    cases s.cranes.craneA.leads <;> rfl

/-- The hooks of a crane's watch that enter FAULT at a scan shut it (R72). -/
theorem Watch.shutAt_eq (w : Watch) (used : List (Hook × Hook)) :
    w.shutAt used = w.shutIf (used.any fun h => faultedAt h.1 h.2) := by
  have fault : (∃ h ∈ used, h.1.health = .good ∧ h.2.health = .fault) ↔ (used.any fun h => faultedAt h.1 h.2) = true := by
    simp [faultedAt]
  unfold Watch.shutAt Watch.shutIf Watch.shutIt
  simp only [fault]
  cases used.any fun h => faultedAt h.1 h.2 <;> cases w.phase <;> cases w.condition <;> simp

/-- An end that the 100 ms before a load scan bring to its limit (R41, log 4). -/
theorem CraneContext.overdue_pass (x : CraneContext) :
    x.pass.overdue = decide (x.immRunning = true ∧ x.limitTaken = false ∧
      (x.state = .lowering ∨ x.state = .immersed ∨ x.state = .withdrawing) ∧
      ∃ k ∈ x.snapshot, k.immLimit ≤ if x.immRunning = true then min (x.immTimer + 1) 65535 else x.immTimer) := by
  rw [Bool.eq_iff_iff]
  cases hk : x.snapshot <;>
    simp [CraneContext.overdue, CraneContext.canExpire, CraneContext.pass, Config.max16, and_assoc, or_assoc, hk]

theorem faultedAt_eq (h k : Hook) : decide (h.health = .good ∧ k.health = .fault) = faultedAt h k := by
  rw [Bool.eq_iff_iff]
  simp [faultedAt]

@[simp] theorem CraneContext.expired_leads (x : CraneContext) : x.expired.leads = x.leads := by
  unfold CraneContext.expired
  split <;> rfl

/-- The hooks of a watch that enter FAULT, one after the other (R67, R72). -/
theorem State.shutAt_scannedHooks (s : State) (rA rB : Reading) (c : Crane) (w : Watch)
    (both : w.bothHooks = (s.watches.get c).bothHooks) :
    w.shutAt (s.scannedHooks rA rB c) =
      (w.shutIf (faultedAt s.hooks.craneA (s.hooks.craneA.scan s.settings rA) && w.uses c .craneA)).shutIf
        (faultedAt s.hooks.craneB (s.hooks.craneB.scan s.settings rB) && w.uses c .craneB) := by
  rw [Watch.shutIf_shutIf, Watch.shutAt_eq]
  unfold State.scannedHooks Watch.uses
  rw [← both]
  cases c <;> cases w.bothHooks <;> simp

@[simp] theorem Watch.shutIf_uses (w : Watch) (b : Bool) (owner hook : Crane) : (w.shutIf b).uses owner hook = w.uses owner hook := by
  simp [Watch.uses]

@[simp] theorem CraneContext.pass_leads (x : CraneContext) : x.pass.leads = x.leads := rfl

/-- A notice goes to both cranes for a crane that leads a tandem entry (R53). -/
theorem toldTo_leads (ns : PerPort NoticeQueue) (x : CraneContext) (c : Crane) (n : Notice) :
    toldTo ns x.leads c n =
      if x.link = .lead then { ns with craneA := ns.craneA.push n, craneB := ns.craneB.push n }
      else ns.set c.port ((ns.get c.port).push n) := by
  simp only [toldTo, CraneContext.leads_iff]

/-- The notice of the expiry that the 100 ms before a load scan bring (R41, log 4). -/
theorem toldExpired_pass (ns : PerPort NoticeQueue) (c : Crane) (x : CraneContext) :
    toldExpired ns c x.pass =
      if x.pass.overdue = false then ns
      else if x.link = .lead then
        { ns with
          craneA := ns.craneA.push (.overdip (x.entry.getD 0) (x.endNo.getD 0))
          craneB := ns.craneB.push (.overdip (x.entry.getD 0) (x.endNo.getD 0)) }
      else ns.set c.port ((ns.get c.port).push (.overdip (x.entry.getD 0) (x.endNo.getD 0))) := by
  unfold toldExpired
  rw [CraneContext.pass_leads, toldTo_leads]
  cases x.pass.overdue <;> rfl

/-- A load scan weighs both hooks after the 100 ms before it, and leaves what the statement of its stages gives (R56, log 3). -/
theorem State.scanHooks_eq_weighed (s : State) (rA rB : Reading) : s.scanHooks rA rB = s.weighed rA rB := by
  have hooks : s.pass.hooks = s.hooks := rfl
  have settings : s.pass.settings = s.settings := rfl
  have watches : s.pass.watches = s.watches := rfl
  have getA : s.hooks.get .craneA = s.hooks.craneA := rfl
  have setA : ∀ h, (s.hooks.set .craneA h).get .craneB = s.hooks.craneB := fun _ => rfl
  unfold State.scanHooks State.weighed
  rw [State.scanHook_eq, State.scanHook_eq, State.elapse_eq]
  simp only [← CraneContext.overdue_pass, faultedAt_eq, s.shutAt_scannedHooks rA rB .craneA s.watches.craneA rfl,
    s.shutAt_scannedHooks rA rB .craneB s.watches.craneB rfl, hooks, settings, watches, getA, setA, Watch.shutIf_uses,
    CraneContext.expired_leads, CraneContext.pass_leads, toldExpired_pass, toldTo_leads]
  congr 1
  cases faultedAt s.hooks.craneA (s.hooks.craneA.scan s.settings rA) <;>
    cases faultedAt s.hooks.craneB (s.hooks.craneB.scan s.settings rB) <;> rfl

end Sys2Proof.Machine

namespace Sys2Proof.Machine

/-! ### The value of a watch's scan (R69, R70, R73) -/

/-- The hooks of a watch as a load scan finds and leaves them: one or two, each with a sample in its ring (R61, R67). -/
structure Weighing (used : List (Hook × Hook)) : Prop where
  few : (∃ p, used = [p]) ∨ ∃ p q, used = [p, q]
  rings : ∀ h ∈ used, h.2.ring ≠ []

/-- A hook holds a sample after a scan (R61). -/
theorem Hook.scan_ring_ne_nil (h : Hook) (t : Settings) (r : Reading) : (h.scan t r).ring ≠ [] := by
  intro empty
  have length : (pushSample h.ring (h.cal.sample r)).length = 0 := congrArg List.length empty
  simp [pushSample, Config.ringRoom] at length
  omega

theorem State.scannedHooks_weighing (s : State) (rA rB : Reading) (c : Crane) : Weighing (s.scannedHooks rA rB c) := by
  unfold State.scannedHooks
  constructor
  · cases c <;> cases (s.watches.get _).bothHooks <;> simp
  · cases c <;> cases (s.watches.get _).bothHooks <;> simp [Hook.scan_ring_ne_nil]

/-- A sample of a watch's scan is OVER exactly when the newest sample of one of its hooks is (R58, R70). -/
theorem watchOver_iff {used : List (Hook × Hook)} (weighing : Weighing used) :
    watchOver used ↔ (used.map Prod.snd).any Hook.newestOver = true := by
  have newest : ∀ h ∈ used, (h.2.ring.getLast?.bind Sample.mass = none ↔ h.2.newestOver = true) := by
    intro h mem
    have ring := weighing.rings h mem
    unfold Hook.newestOver
    cases hr : h.2.ring.getLast? with
    | none => exact absurd (List.getLast?_eq_none_iff.mp hr) ring
    | some x => simp
  simp only [watchOver, List.any_map, List.any_eq_true, Function.comp_apply]
  exact exists_congr fun h => and_congr_right (newest h)

/-- The value of a watch's scan is the usable value of its hook, or the two hooks' sum (R69, R73). -/
theorem watchValue_eq {used : List (Hook × Hook)} (weighing : Weighing used) :
    watchValue used = scanValue (used.map Prod.snd) := by
  obtain ⟨p, rfl⟩ | ⟨p, q, rfl⟩ := weighing.few
  · cases hp : p.2.health <;> cases mp : p.2.ring.getLast?.bind Sample.mass <;>
      simp [watchValue, scanValue, Hook.usable, newestMass, hp, mp]
  · cases hp : p.2.health <;> cases hq : q.2.health <;> cases mp : p.2.ring.getLast?.bind Sample.mass <;>
      cases mq : q.2.ring.getLast?.bind Sample.mass <;>
      simp [watchValue, scanValue, Hook.usable, newestMass, addMasses, hp, mp, hq, mq]

/-- Hooks whose newest masses have a sum have no newest sample OVER (R69). -/
theorem mass_of_newestMass : ∀ {hooks : List Hook} {m : Int}, newestMass hooks = some m →
    ∀ h ∈ hooks, (h.ring.getLast?).bind Sample.mass ≠ none
  | [], _, _, _, mem => nomatch mem
  | k :: ks, m, sum, h, mem => by
    unfold newestMass at sum
    cases hk : k.ring.getLast?.bind Sample.mass with
    | none => simp [hk] at sum
    | some a =>
      cases hs : newestMass ks with
      | none => simp [hs] at sum
      | some b =>
        obtain rfl | tail := List.mem_cons.mp mem
        · simp [hk]
        · exact mass_of_newestMass hs h tail

/-- A scan that brings a usable value has no sample OVER (R69, R70). -/
theorem not_watchOver_of_value {used : List (Hook × Hook)} {m : Int} (value : watchValue used = some m) : ¬watchOver used := by
  unfold watchValue at value
  split at value
  · rintro ⟨h, mem, absent⟩
    exact mass_of_newestMass value h.2 (List.mem_map_of_mem mem) absent
  · cases value

/-! ### A watch in AFTER (R70, R71) -/

/-- The fields that a fault of a hook leaves a watch (R72). -/
theorem Watch.shutAt_frame (w : Watch) (used : List (Hook × Hook)) :
    (w.shutAt used).phase = w.phase ∧ (w.shutAt used).remaining = w.remaining ∧
      (w.shutAt used).afterScans = w.afterScans ∧ (w.shutAt used).tail = w.tail ∧ (w.shutAt used).width = w.width ∧
      (w.shutAt used).threshold = w.threshold ∧
      ((w.shutAt used).condition = .opened → w.shutAt used = w) := by
  unfold Watch.shutAt
  split <;> simp

/-- The window that a scan in AFTER leaves (R70). -/
theorem Watch.nextWindow_shutAt (w : Watch) {used : List (Hook × Hook)} (weighing : Weighing used) :
    (w.shutAt used).nextWindow (watchValue used) ((used.map Prod.snd).any Hook.newestOver) = w.windowAt used := by
  obtain ⟨-, -, -, -, -, -, opened⟩ := w.shutAt_frame used
  unfold Watch.nextWindow Watch.windowAt
  cases hc : (w.shutAt used).condition with
  | shut => simp
  | opened =>
    rw [opened hc]
    simp only [← watchOver_iff weighing, reduceCtorEq, if_false]
    cases hv : watchValue used with
    | none => rfl
    | some m => simp [not_watchOver_of_value hv, pushWindow]

/-- The drop of a full window is the older mean less the newer (R71). -/
theorem Watch.drop_windowAt (w : Watch) (used : List (Hook × Hook)) :
    (w.shutAt used).drop (w.windowAt used) = (w.meansAt used).map fun m => m.1 - m.2 := by
  obtain ⟨-, -, -, -, width, -, -⟩ := w.shutAt_frame used
  unfold Watch.drop Watch.meansAt
  simp only [width]
  split <;> rfl

/-- The scan in AFTER reports the sensed condition exactly when it holds (R71). -/
theorem Watch.sensedAt_isSome (w : Watch) {used : List (Hook × Hook)} (weighing : Weighing used) :
    ((w.shutAt used).sensedAt (watchValue used) ((used.map Prod.snd).any Hook.newestOver)).isSome = w.sensesAt used := by
  obtain ⟨-, -, -, -, -, threshold, -⟩ := w.shutAt_frame used
  unfold Watch.sensedAt Watch.sensesAt
  rw [w.nextWindow_shutAt weighing, w.drop_windowAt used, threshold]
  cases w.meansAt used with
  | none => rfl
  | some m =>
    simp only [Option.map_some, Option.any_some]
    split <;> simp [*]

/-- A watch in AFTER as a scan leaves it (R69 to R71). -/
theorem Watch.afterScan_shutAt (w : Watch) {used : List (Hook × Hook)} (weighing : Weighing used) (after : w.phase = .after) :
    (w.shutAt used).afterScan (watchValue used) ((used.map Prod.snd).any Hook.newestOver) = w.scannedBy used := by
  obtain ⟨-, -, scans, tail, width, -, -⟩ := w.shutAt_frame used
  unfold Watch.afterScan Watch.scannedBy
  simp only [w.nextWindow_shutAt weighing, w.drop_windowAt used, after, scans, tail, width, ← watchOver_iff weighing]
  congr 1
  · cases w.meansAt used <;> rfl
  · cases watchValue used <;> simp [pushTail]

/-- A watch in BLANKING as a scan leaves it (R68, R69). -/
theorem Watch.blankingScan_shutAt (w : Watch) (used : List (Hook × Hook)) (blanking : w.phase = .blanking) :
    (w.shutAt used).blankingScan (watchValue used) = w.scannedBy used := by
  obtain ⟨-, remaining, -, tail, width, -, -⟩ := w.shutAt_frame used
  unfold Watch.blankingScan Watch.scannedBy
  simp only [blanking, remaining, tail, width]
  cases watchValue used <;> simp [pushTail]

/-! ### The report of a scan to its timer (R92 to R94) -/

/-- The report of a scan that does not end its drain captures the first sensed duration (R94). -/
theorem DrainTimer.report_of_not_scanEnds {w : Watch} {t : DrainTimer} {used : List (Hook × Hook)} (after : w.phase = .after)
    (running : t.state = .running) (runsOn : ¬scanEnds w t used) :
    t.report (min (w.afterScans + 1) 65535) (w.sensesAt used) = { timer := t.scannedBy w used, ends := none } := by
  have first : (min (w.afterScans + 1) 65535 == 1) = decide (w.afterScans = 0) := by
    rw [Bool.eq_iff_iff, beq_iff_eq, decide_eq_true_iff]
    omega
  have noSense : (w.sensesAt used && t.sensed.isNone && (t.mode == some .sensed || t.mode == some .either)) = false := by
    rw [Bool.eq_false_iff]
    intro ends
    simp only [Bool.and_eq_true, Bool.or_eq_true, beq_iff_eq, Option.isNone_iff_eq_none, and_assoc] at ends
    exact runsOn ⟨after, running, .inl ends⟩
  have noTimed : (t.timedPending && t.consults && decide (w.afterScans = 0)) = false := by
    rw [Bool.eq_false_iff]
    intro ends
    simp only [DrainTimer.consults, Bool.and_eq_true, Bool.or_eq_true, beq_iff_eq, decide_eq_true_eq, and_assoc] at ends
    exact runsOn ⟨after, running, .inr ends⟩
  unfold DrainTimer.report DrainTimer.scannedBy
  simp only [first, noSense, noTimed, after, running, DrainTimer.duration]
  by_cases capture : t.sensed = none ∧ w.sensesAt used = true
  · simp [capture.1, capture.2]
  · have keep : (w.sensesAt used && t.sensed.isNone) = false := by
      rw [Bool.eq_false_iff]
      simpa [and_comm] using capture
    simp [keep, capture, ← running]

/-- A timer whose drain a scan in AFTER does not report to (R92). -/
theorem DrainTimer.scannedBy_of_not_running {w : Watch} {t : DrainTimer} (used : List (Hook × Hook)) (after : w.phase = .after)
    (stopped : t.state ≠ .running) : t.scannedBy w used = t := by
  simp [DrainTimer.scannedBy, after, stopped]

/-! ### A watch at a load scan that does not end its drain (R67 to R73, R92 to R94) -/

/-- A crane's watch and timer, with `w`, `t` what a load scan found, as the scan leaves them. -/
def State.watched (a : State) (c : Crane) (w : Watch) (t : DrainTimer) (used : List (Hook × Hook)) : State :=
  { a with watches := a.watches.set c (w.scannedBy used), timers := a.timers.set c (t.scannedBy w used) }

/-- A load scan that does not end a crane's drain moves its watch and its timer on. -/
theorem State.scanWatch_of_not_scanEnds {a : State} {c : Crane} {w : Watch} {t : DrainTimer} {used : List (Hook × Hook)}
    (watch : a.watches.get c = w.shutAt used) (timer : a.timers.get c = t)
    (hooks : a.hooksOf c w.bothHooks = used.map Prod.snd) (weighing : Weighing used) (runsOn : ¬scanEnds w t used) :
    a.scanWatch c = a.watched c w t used := by
  have both : (w.shutAt used).bothHooks = w.bothHooks := by rw [Watch.shutAt_eq, Watch.shutIf_bothHooks]
  obtain ⟨phase, -⟩ := w.shutAt_frame used
  unfold State.scanWatch
  simp only [watch, both, hooks, phase]
  cases hp : w.phase with
  | inactive =>
    have kept : w.shutAt used = w := by simp [Watch.shutAt, hp]
    have scanned : w.scannedBy used = w := by simp [Watch.scannedBy, hp]
    have timed : t.scannedBy w used = t := by simp [DrainTimer.scannedBy, hp]
    unfold State.watched
    rw [scanned, timed, ← timer, ← kept, ← watch, PerCrane.set_get, PerCrane.set_get]
  | blanking =>
    have ended : (w.scannedBy used).phase = .after ↔ w.remaining ≤ 1 := by simp [Watch.scannedBy, hp]
    unfold State.scanBlanking State.endBlanking State.watched
    simp only [← watchValue_eq weighing, watch, w.blankingScan_shutAt used hp, timer, ended]
    split
    · rename_i last
      simp [DrainTimer.scannedBy, hp, last]
    · rename_i more
      have timed : t.scannedBy w used = t := by simp [DrainTimer.scannedBy, hp, more]
      rw [timed, ← timer, PerCrane.set_get]
  | after =>
    have scans : (w.scannedBy used).afterScans = min (w.afterScans + 1) 65535 := by simp [Watch.scannedBy, hp]
    unfold State.scanAfter State.takeTimer
    simp only [← watchValue_eq weighing, watch, w.afterScan_shutAt weighing hp, w.sensedAt_isSome weighing, scans, timer]
    split
    · rename_i running
      rw [DrainTimer.report_of_not_scanEnds hp running runsOn]
      rfl
    · rename_i stopped
      unfold State.watched
      rw [DrainTimer.scannedBy_of_not_running used hp stopped, ← timer, PerCrane.set_get]

/-! ### The load scan that ends no drain -/

/-- A load scan leaves both contexts their states, and so the stillness of the kettle (R122). -/
theorem State.weighed_still (s : State) (rA rB : Reading) : (s.weighed rA rB).still = s.still := by
  have cranes : ∀ (x : CraneContext) (late : Bool) (y z : CraneContext), y.state = x.state → z.state = x.state →
      (if late then y else z).state = x.state := by
    intro x late y z hy hz
    cases late <;> simp [hy, hz]
  unfold State.still
  congr 2
  · congr 2
    exact cranes _ _ _ _ rfl rfl
  · congr 2
    exact cranes _ _ _ _ rfl rfl

/-- The hooks that a load scan leaves a crane's watch (R67). -/
theorem State.weighed_hooksOf (s : State) (rA rB : Reading) (c : Crane) :
    (s.weighed rA rB).hooksOf c (s.watches.get c).bothHooks = (s.scannedHooks rA rB c).map Prod.snd := by
  unfold State.hooksOf State.scannedHooks
  cases c <;> cases (s.watches.get _).bothHooks <;> rfl

/-- A load scan that ends no drain, after its hooks and with no watch but crane `c`'s moved on yet. -/
def State.weighedAndWatched (s : State) (rA rB : Reading) (c : Crane) : State :=
  (s.weighed rA rB).watched c (s.watches.get c) (s.timers.get c) (s.scannedHooks rA rB c)

/-- A load scan that ends no drain moves both watches on, the one named first before the other. -/
theorem State.loadScan_of_not_scanEnds {s : State} {rA rB : Reading} (first : Crane)
    (runsOn : ∀ c, ¬scanEnds (s.watches.get c) (s.timers.get c) (s.scannedHooks rA rB c)) :
    s.loadScan rA rB first =
      ((s.weighedAndWatched rA rB first).watched first.other (s.watches.get first.other) (s.timers.get first.other)
        (s.scannedHooks rA rB first.other)).judgeLines := by
  have firstScan : (s.weighed rA rB).scanWatch first = s.weighedAndWatched rA rB first :=
    State.scanWatch_of_not_scanEnds (by cases first <;> rfl) rfl (s.weighed_hooksOf rA rB first)
      (s.scannedHooks_weighing rA rB first) (runsOn first)
  have firstEnd : s.endEvent (s.weighedAndWatched rA rB first) .loadScan = (s.weighedAndWatched rA rB first).judgeLines :=
    State.endEvent_of_still _ rfl (s.weighed_still rA rB)
  have secondScan : (s.weighedAndWatched rA rB first).judgeLines.scanWatch first.other = _ :=
    State.scanWatch_of_not_scanEnds (t := s.timers.get first.other) (by cases first <;> rfl) (by cases first <;> rfl)
      (s.weighed_hooksOf rA rB first.other) (s.scannedHooks_weighing rA rB first.other) (runsOn first.other)
  unfold State.loadScan
  simp only [s.scanHooks_eq_weighed, firstScan, firstEnd, secondScan]
  exact State.endEvent_of_still _ rfl rfl

/-- Settles O49: both watches move on whichever is named first, and neither end of a watch's step changes more than the lines. -/
theorem a_load_scan_without_a_drain_weighs_and_counts : Obligations.A_load_scan_without_a_drain_weighs_and_counts := by
  unfold Obligations.A_load_scan_without_a_drain_weighs_and_counts
  intro s rA rB first run saved noLapse used runsOn
  have scanEnd : s.endEvent
      ((s.weighedAndWatched rA rB .craneA).watched .craneB s.watches.craneB s.timers.craneB (used .craneB)) .loadScan = _ :=
    State.endEvent_of_still _ rfl (s.weighed_still rA rB)
  have order : ((s.weighedAndWatched rA rB first).watched first.other (s.watches.get first.other)
        (s.timers.get first.other) (used first.other)).judgeLines =
      ((s.weighedAndWatched rA rB .craneA).watched .craneB s.watches.craneB s.timers.craneB (used .craneB)).judgeLines := by
    cases first <;> rfl
  rw [exec_loadScan_of_saved run saved, State.runOuts_of_noLapse noLapse, State.loadScan_of_not_scanEnds first runsOn]
  exact congrArg _ (order.trans scanEnd.symm)

end Sys2Proof.Machine

namespace Sys2Proof.Machine

/-! ### The reset state (R189, R198, log 18) -/

/-- Settles O3: the reset state is written out field by field, so each value is read off, port by port and crane by crane. -/
theorem reset_holds_the_restart_values : Obligations.Reset_holds_the_restart_values := by
  unfold Obligations.Reset_holds_the_restart_values
  have crane : ∀ c : Crane, State.reset.cranes.get c = CraneContext.idle none := by rintro ⟨⟩ <;> rfl
  have timer : ∀ c : Crane, State.reset.timers.get c = DrainTimer.idle := by rintro ⟨⟩ <;> rfl
  have watch : ∀ c : Crane, State.reset.watches.get c = Watch.inactive := by rintro ⟨⟩ <;> rfl
  have hook : ∀ c : Crane, State.reset.hooks.get c = Hook.restarted Calibration.newPart := by rintro ⟨⟩ <;> rfl
  have engine : ∀ p : Port, State.reset.engines.get p = Engine.restarted := by rintro ⟨⟩ <;> rfl
  have notices : ∀ c : Crane, State.reset.notices.get c.port = NoticeQueue.empty := by rintro ⟨⟩ <;> rfl
  intro s
  refine ⟨rfl, rfl, fun c => ?_, rfl, rfl, rfl, rfl, rfl, rfl, fun c => ?_, fun c => ?_, rfl, rfl, rfl, rfl, rfl, rfl, rfl,
    rfl, fun p => ?_, rfl, rfl, rfl, rfl, rfl, rfl, rfl, rfl, notices, rfl, rfl, rfl, rfl⟩
  · rw [crane]
    exact ⟨rfl, rfl, rfl, rfl, rfl⟩
  · rw [timer, watch]
    exact ⟨rfl, rfl, rfl, rfl, rfl⟩
  · rw [hook]
    exact ⟨rfl, rfl, rfl, rfl⟩
  · rw [engine]
    exact ⟨rfl, rfl⟩

/-- The lanes of the reset state are FREE (R2). -/
theorem mem_reset_lanes {ln : Lane} (mem : ln ∈ State.reset.lanes) : ln = { holder := .free, entry := none } :=
  List.eq_of_mem_replicate mem

/-- The links of an empty map agree: no crane has an entry (R26, R52). -/
theorem reset_tandemLawful : State.reset.tandemLawful := by
  have crane : ∀ c : Crane, State.reset.cranes.get c = CraneContext.idle none := by rintro ⟨⟩ <;> rfl
  refine ⟨⟨nofun, nofun, ⟨nofun, nofun⟩, fun c => ?_, fun c _ => ?_, fun c linked => ?_⟩, nofun, fun c joining => ?_⟩
  · rw [crane]
    exact iff_of_true rfl rfl
  · rw [crane]
    rfl
  · rw [crane] at linked
    nomatch linked
  · rw [crane] at joining
    nomatch joining

/-- No slot of a new part holds a job number (R135). -/
theorem reset_job_unnamed (i n : Nat) : (State.reset.job i).named n = false := by
  have vacant : State.reset.job i = JobSlot.vacant .free := by
    show (List.replicate Config.jobCount (JobSlot.vacant .free)).getD i (JobSlot.vacant .free) = _
    rw [List.getD_eq_getElem?_getD, List.getElem?_replicate]
    split <;> rfl
  rw [vacant]
  rfl

/-- The settings of a new part lie in their ranges (R172, R189). -/
theorem reset_settings_inRange : State.reset.settings.inRange := by
  have ranges : ∀ n ∈ List.range (Config.settingCount + 1), 1 ≤ n →
      (settingRange n).1 ≤ State.reset.settings.get n ∧ State.reset.settings.get n ≤ (settingRange n).2 := by decide
  exact ⟨fun n low high => ranges n (List.mem_range.mpr (Nat.lt_succ_of_le high)) low, by decide⟩

/-- No write of the reset state is due (R190). -/
theorem not_mem_reset_writes {w : StepWrites} (mem : w ∈ State.reset.unsaved.flatMap DueStep.writes) : False :=
  List.not_mem_nil mem

/-- An item of a store is the same as itself. -/
theorem sameItem_refl (x : StoreImage) (k : StoreKey) : sameItem x x k = true := by
  cases k <;> simp [sameItem]

/-- The store of the reset state is its working copy, and no write of it is due (R190). -/
theorem reset_storeCurrent : State.reset.storeCurrent :=
  fun _ => ⟨⟨rfl, rfl⟩, fun _ mem => (not_mem_reset_writes mem).elim, fun k _ => sameItem_refl State.reset.image k⟩

/-- No slot of the reset state holds an answer (R205). -/
theorem reset_answersFit : State.reset.answersFit := by
  intro p st bytes ready
  cases p <;> nomatch ready

/-- Settles O4, law by law: a new part after its first restart has an empty map, no entry, no job and an INVALID book. -/
theorem reset_keeps_every_law : Obligations.Reset_keeps_every_law := by
  refine ⟨⟨by decide, fun p => ?_⟩, craneOrder_of_none _ fun ln mem => ?_, ⟨rfl, fun ln mem => ?_⟩, reset_tandemLawful,
    ⟨fun i j n named => ?_, .nil, nofun⟩, ⟨fun valid => absurd rfl valid, nofun⟩, reset_settings_inRange, ⟨rfl, rfl⟩, reset_storeCurrent,
    fun _ mem => (not_mem_reset_writes mem).elim, reset_answersFit⟩
  · cases p <;> decide
  · rw [mem_reset_lanes mem]
    nofun
  · rw [mem_reset_lanes mem]
    exact iff_of_true rfl rfl
  · rw [reset_job_unnamed] at named
    nomatch named

end Sys2Proof.Machine

namespace Sys2Proof.Machine

/-! ### A hook's item in the store (R60, R190, log 13) -/

/-- The store holds a hook's item with the values given, and no word of the item is in error. -/
structure Store.HoldsHook (st : Store) (c : Crane) (cal : Calibration) : Prop where
  values : st.image.hooks.get c = cal
  sound : ∀ u ∈ st.flips, u.key ≠ .hook c

/-- A write of another item leaves a hook's values. -/
theorem StoreImage.putItem_hooks_other (dst src : StoreImage) {key : StoreKey} {c : Crane} (other : key ≠ .hook c) :
    (dst.putItem src key).hooks.get c = dst.hooks.get c := by
  cases key with
  | hook d => exact PerCrane.get_set_other _ _ fun same => other (congrArg StoreKey.hook same.symm)
  | classFields n | classEdition n | job n => dsimp only [StoreImage.putItem]; split <;> rfl
  | _ => rfl

/-- A write puts no word of an item in error: of a list's items that stay, the words move with their items (log 13). -/
theorem flipsAfterWrite_sound (old src : StoreImage) (key : StoreKey) {flips : List BadWord} {j : StoreKey}
    (sound : ∀ u ∈ flips, u.key ≠ j) : ∀ u ∈ flipsAfterWrite old src key flips, u.key ≠ j := by
  intro u mem
  cases key with
  | records =>
    simp only [flipsAfterWrite, List.mem_map, List.mem_filter] at mem
    obtain ⟨v, ⟨listed, -⟩, rfl⟩ := mem
    have found := sound v listed
    split <;> exact found
  | foul =>
    simp only [flipsAfterWrite, List.mem_filterMap] at mem
    obtain ⟨v, listed, moved⟩ := mem
    have found := sound v listed
    split at moved
    · split at moved
      · split at moved
        · cases moved; exact found
        · cases moved
      · cases moved
    · cases moved; exact found
  | _ => exact sound u (List.mem_filter.mp mem).1

/-- A written hook item holds its working copy, whatever it held, and every word of it is sound (R60, log 13). -/
theorem Store.holdsHook_write_same (st : Store) (src : StoreImage) (c : Crane) :
    (st.write src (.hook c)).HoldsHook c (src.hooks.get c) where
  values := PerCrane.get_set_same _ _ _
  sound u mem := by simpa using (List.mem_filter.mp mem).2

section HoldsHook

variable {st : Store} {c : Crane} {cal : Calibration}

/-- A write keeps a hook's item, unless it is the item's own write with another value. -/
theorem Store.HoldsHook.write (held : st.HoldsHook c cal) {src : StoreImage} {key : StoreKey}
    (same : key = .hook c → src.hooks.get c = cal) : (st.write src key).HoldsHook c cal := by
  by_cases own : key = .hook c
  · have written := st.holdsHook_write_same src c
    rwa [same own, ← own] at written
  · exact ⟨(StoreImage.putItem_hooks_other _ _ own).trans held.values, flipsAfterWrite_sound _ _ _ held.sound⟩

theorem Store.HoldsHook.writeAll (held : st.HoldsHook c cal) {src : StoreImage} {keys : List StoreKey}
    (same : .hook c ∈ keys → src.hooks.get c = cal) : (st.writeAll src keys).HoldsHook c cal := by
  induction keys generalizing st with
  | nil => exact held
  | cons k ks ih =>
    exact ih (held.write fun own => same (own ▸ List.mem_cons_self)) fun later => same (List.mem_cons_of_mem k later)

theorem Store.HoldsHook.makeStep (held : st.HoldsHook c cal) {ws : List StepWrites}
    (none : ∀ w ∈ ws, .hook c ∉ w.keys) : (st.makeStep ws).HoldsHook c cal := by
  induction ws generalizing st with
  | nil => exact held
  | cons w ws ih =>
    obtain ⟨first, rest⟩ := List.forall_mem_cons.mp none
    exact ih (held.writeAll fun own => absurd own first) rest

/-- Due steps that do not write a hook's item keep it. -/
theorem Store.HoldsHook.makeSteps (held : st.HoldsHook c cal) {steps : List DueStep}
    (none : ∀ d ∈ steps, ∀ w ∈ d.writes, .hook c ∉ w.keys) :
    (steps.foldl (fun st d => st.makeStep d.writes) st).HoldsHook c cal := by
  induction steps generalizing st with
  | nil => exact held
  | cons d ds ih =>
    obtain ⟨first, rest⟩ := List.forall_mem_cons.mp none
    exact ih (held.makeStep first) rest

end HoldsHook

/-- Steps still due no longer write an item that has been written with a later value (R190). -/
theorem not_mem_keys_of_stillDue {steps : List DueStep} {written : List StoreKey} {k : StoreKey} (mem : k ∈ written) :
    ∀ d ∈ stillDue steps written, ∀ w ∈ d.writes, k ∉ w.keys := by
  intro d due w left
  simp only [stillDue, List.mem_filter, List.mem_map] at due
  obtain ⟨⟨d, -, rfl⟩, -⟩ := due
  simp only [withoutWritten, List.mem_filter, List.mem_map] at left
  obtain ⟨⟨w, -, rfl⟩, -⟩ := left
  simp [mem]

/-- The working copy of a hook's item (R60). -/
theorem State.image_hooks_get (s : State) (c : Crane) : s.image.hooks.get c = (s.hooks.get c).cal := by cases c <;> rfl

/-- The end of an accepted request keeps a hook's item that stands as its working copy and that no due step writes: what it writes
is due steps without the item, and working copies (R190). -/
theorem State.accepted_holdsHook (old : State) {new : State} {c : Crane} (p : Port) (ans : List Byte)
    (held : new.store.HoldsHook c (new.hooks.get c).cal)
    (undue : ∀ d ∈ new.unsaved, ∀ w ∈ d.writes, .hook c ∉ w.keys) :
    (old.accepted p ans new).store.HoldsHook c (new.hooks.get c).cal := by
  have due : ((old.judgeStill new).writeDue .lapse).store.HoldsHook c (new.hooks.get c).cal := by
    refine Store.HoldsHook.makeSteps (by simpa using held) fun d mem => undue d ?_
    simpa using (List.mem_filter.mp mem).1
  exact due.writeAll fun _ => by simp [State.image_hooks_get]

/-- A request that writes a hook's item leaves it in the store as the request made it, with no word in error (R60, R190, log 13). -/
theorem State.accepted_writeNow_hook (old x : State) (c : Crane) (p : Port) (ans : List Byte) {cal : Calibration}
    (made : (x.hooks.get c).cal = cal) :
    let t := old.accepted p ans (x.writeNow [.hook c])
    (t.hooks.get c).cal = cal ∧ t.store.image.hooks.get c = cal ∧ ∀ u ∈ t.store.flips, u.key ≠ .hook c := by
  intro t
  have written : (x.writeNow [.hook c]).store.HoldsHook c (x.hooks.get c).cal := by
    rw [← x.image_hooks_get]
    exact x.store.holdsHook_write_same x.image c
  obtain ⟨values, sound⟩ := old.accepted_holdsHook p ans written (not_mem_keys_of_stillDue List.mem_cons_self)
  have kept : t.hooks = x.hooks := by simp [t, State.accepted, State.replied, State.endRequest]
  exact ⟨by rw [kept, made], values.trans made, sound⟩

/-! ### ZERO HOOK (R80, log 20) -/

/-- The zero of a ring with S samples is the mean of the newest S raw counts (R80). -/
theorem Hook.newZero_of_full {h : Hook} {n : Nat} (full : n ≤ h.ring.length) :
    h.newZero n = roundDiv ((h.ring.drop (h.ring.length - n)).map Sample.raw).sum n := if_pos full

/-- The zero of a shorter ring is a free raw count (log 20). -/
theorem Hook.newZero_of_short {h : Hook} {n : Nat} (short : h.ring.length < n) :
    -8388608 ≤ h.newZero n ∧ h.newZero n ≤ 8388607 := by
  rw [Hook.newZero, if_neg (Nat.not_le.mpr short)]
  have low := BitVec.le_toInt (Config.shortRingZero (h.ring.map Sample.raw) n)
  have high := BitVec.toInt_lt (x := Config.shortRingZero (h.ring.map Sample.raw) n)
  norm_num at low high
  omega

section ZeroHook

variable {c : Crane} {s : State}

theorem zeroHookRule_steady (idle : (s.cranes.get c).state = .idle) (steady : (s.hooks.get c).steady.isSome = true) :
    zeroHookRule c s =
      .done (leSigned 3 ((s.hooks.get c).newZero s.settings.steadyCount))
        (({ s with
            hooks := s.hooks.set c
              { (s.hooks.get c).emptied with
                cal := { (s.hooks.get c).cal with zero := (s.hooks.get c).newZero s.settings.steadyCount } } } :
          State).writeNow [.hook c]) := by
  have present : (s.hooks.get c).steady ≠ none := Option.isSome_iff_ne_none.mp steady
  simp [zeroHookRule, idle, present]

theorem zeroHookRule_busy (busy : (s.cranes.get c).state ≠ .idle) : zeroHookRule c s = .refused .wrongState := if_pos busy

theorem zeroHookRule_unsteady (idle : (s.cranes.get c).state = .idle) (unsteady : (s.hooks.get c).steady = none) :
    zeroHookRule c s = .refused .hookUnsteady := by simp [zeroHookRule, idle, unsteady]

/-- ZERO HOOK is refused as its rule says. -/
theorem exec_zeroHook_refused {st : Status} (takes : s.takes c.port = true) (own : zeroHookRule c s = .refused st) :
    exec (.zeroHook c.port []) s = .next (s.replied c.port st []) :=
  exec_refused (r := .zeroHook) rfl takes (by cases c <;> rfl) rfl ((byCrane_port c _).trans own)

/-- ZERO HOOK is taken as its rule says. -/
theorem exec_zeroHook_done {ans : List Byte} {new : State} (takes : s.takes c.port = true)
    (own : zeroHookRule c s = .done ans new) : exec (.zeroHook c.port []) s = .next (s.accepted c.port ans new) :=
  exec_done (r := .zeroHook) rfl takes (by cases c <;> rfl) rfl ((byCrane_port c _).trans own)

end ZeroHook

/-! ### SET HOOK (R81) -/

section SetHook

variable {c : Crane} {s : State} {body : List Byte}

theorem setHookRule_bad
    (bad : ((SetHookArgs.read body).hook ≠ 1 ∧ (SetHookArgs.read body).hook ≠ 2) ∨ (SetHookArgs.read body).span = 0) :
    setHookRule body s = .refused .badValue := by
  rcases bad with ⟨not1, not2⟩ | span
  · simp [setHookRule, hookOfCode_eq_none not1 not2]
  · cases named : hookOfCode (SetHookArgs.read body).hook <;> simp [setHookRule, named, span]

theorem setHookRule_named (named : (SetHookArgs.read body).hook = hookCode c) (span : (SetHookArgs.read body).span ≠ 0) :
    setHookRule body s =
      if (s.cranes.get c).state ≠ .idle then .refused .wrongState
      else .done []
        (({ s with
            hooks := s.hooks.set c
              ((s.hooks.get c).recalibrated (SetHookArgs.read body).zero (SetHookArgs.read body).span) } :
          State).writeNow [.hook c]) := by
  simp [setHookRule, named, span]

end SetHook

/-- Settles O47: each rule is read branch by branch, and either one's last act is the write of the hook's item, which the writes at
the end of the request keep. -/
theorem zero_hook_and_set_hook_calibrate_an_idle_hook : Obligations.ZERO_HOOK_and_SET_HOOK_calibrate_an_idle_hook := by
  intro c s h zeroed stored
  refine ⟨fun takes idle steady => ?_, fun takes busy => exec_zeroHook_refused takes (zeroHookRule_busy busy),
    fun takes idle unsteady => exec_zeroHook_refused takes (zeroHookRule_unsteady idle unsteady), fun body takes len => ?_⟩
  · exact ⟨h.newZero s.settings.steadyCount, Hook.newZero_of_full, Hook.newZero_of_short,
      exec_zeroHook_done takes (zeroHookRule_steady idle steady), s.accepted_writeNow_hook _ c _ _ (by simp)⟩
  · have lenOk : Request.setHook.lengthOk body.length = true := by simp [Request.lengthOk, len]
    exact ⟨fun bad => exec_refused rfl takes rfl lenOk (setHookRule_bad bad),
      fun named span busy => exec_refused rfl takes rfl lenOk ((setHookRule_named named span).trans (if_pos busy)),
      fun named span idle => ⟨exec_done rfl takes rfl lenOk ((setHookRule_named named span).trans (if_neg (not_not.mpr idle))),
        s.accepted_writeNow_hook _ c _ _ (by simp)⟩⟩

end Sys2Proof.Machine

namespace Sys2Proof.Machine

/-! ### The sample of a scan (R57, R58, R61) -/

/-- A reading gives an OVER sample: its overload mark is set, or its mass lies outside the range (R58). -/
def Calibration.readsOver (cal : Calibration) (r : Reading) : Prop :=
  r.overload = true ∨ cal.mass r.raw.toInt < -50000 ∨ 600000 < cal.mass r.raw.toInt

theorem Calibration.readsOver_iff {cal : Calibration} {r : Reading} :
    (r.overload || !massInRange (cal.mass r.raw.toInt)) = true ↔ cal.readsOver r := by
  simp [massInRange, Calibration.readsOver]

/-- An OVER sample has no mass (R58). -/
theorem Calibration.sample_of_over {cal : Calibration} {r : Reading} (isOver : cal.readsOver r) :
    cal.sample r = { raw := r.raw.toInt, mass := none } := by
  simp only [Calibration.sample, if_pos (Calibration.readsOver_iff.mpr isOver)]

/-- Any other sample has the mass of its raw count (R57). -/
theorem Calibration.sample_of_not_over {cal : Calibration} {r : Reading} (isGood : ¬cal.readsOver r) :
    cal.sample r = { raw := r.raw.toInt, mass := some (cal.mass r.raw.toInt) } := by
  simp only [Calibration.sample, if_neg (mt Calibration.readsOver_iff.mp isGood)]

/-- The ring after a sample: its newest 16 (R61). -/
theorem pushSample_eq (ring : List Sample) (x : Sample) :
    pushSample ring x = (ring ++ [x]).drop (ring.length + 1 - 16) := by
  simp [pushSample, Config.ringRoom]

/-! ### The health of a scan (R59) -/

theorem Hook.nextHealth_of_good {h : Hook} (good : h.health = .good) (overs goods : Nat) :
    h.nextHealth overs goods = .fault ↔ 5 ≤ overs := by
  simp [Hook.nextHealth, good]

theorem Hook.nextHealth_of_fault {h : Hook} (fault : h.health = .fault) (overs goods : Nat) :
    h.nextHealth overs goods = .good ↔ 20 ≤ goods ∧ h.cal.calibrated = true := by
  simp [Hook.nextHealth, fault]

/-! ### Steadiness (R62) -/

/-- Masses lie within a band exactly when no two of them differ by more. -/
theorem spread_le_iff (masses : List Int) (band : Nat) :
    spread masses ≤ band ↔ ∀ a ∈ masses, ∀ b ∈ masses, a - b ≤ band := by
  cases masses with
  | nil => simp [spread]
  | cons m ms =>
    have greatest : ms.foldl max m = (m :: ms).max (List.cons_ne_nil m ms) := rfl
    have least : ms.foldl min m = (m :: ms).min (List.cons_ne_nil m ms) := rfl
    have below : ∀ a : Int, (∀ b ∈ m :: ms, a - b ≤ band) ↔ a ≤ band + ms.foldl min m := by
      intro a
      rw [least, ← sub_le_iff_le_add', List.le_min_iff]
      exact forall₂_congr fun _ _ => sub_le_comm
    simp only [below]
    rw [← List.max_le_iff (List.cons_ne_nil m ms), ← greatest, spread, sub_le_iff_le_add]

/-- The masses of samples that are all good. -/
theorem filterMap_mass_of_good {last : List Sample} (good : ∀ x ∈ last, x.mass.isSome = true) :
    last.filterMap Sample.mass = last.map fun x => x.mass.getD 0 := by
  rw [← List.filterMap_eq_map]
  refine List.filterMap_congr fun x mem => ?_
  obtain ⟨m, mass⟩ := Option.isSome_iff_exists.mp (good x mem)
  simp [mass]

/-- A hook is steady exactly when it is GOOD and its newest S samples are all good and within the band, and the steady mean is then
their mean (R62). -/
theorem steadyMean_eq_some {health : Health} {ring : List Sample} {t : Settings} (count : 1 ≤ t.steadyCount) {v : Int} :
    let last := ring.drop (ring.length - t.steadyCount)
    steadyMean health ring t = some v ↔
      health = .good ∧ t.steadyCount ≤ ring.length ∧ (∀ x ∈ last, x.mass.isSome = true) ∧
        (∀ x ∈ last, ∀ y ∈ last, x.mass.getD 0 - y.mass.getD 0 ≤ t.band) ∧
        v = roundDiv (last.map fun x => x.mass.getD 0).sum t.steadyCount := by
  intro last
  simp only [steadyMean, newest, Option.ite_none_right_eq_some, List.filterMap_length_eq_length, and_assoc]
  refine and_congr_right fun _ => and_congr_right fun enough => and_congr_right fun good => ?_
  have length : last.length = t.steadyCount := by simp only [last, List.length_drop]; omega
  have present : last ≠ [] := List.ne_nil_of_length_pos (by omega)
  have mean : meanOf (last.map fun x => x.mass.getD 0) = some (roundDiv (last.map fun x => x.mass.getD 0).sum t.steadyCount) := by
    simp [meanOf, present, length]
  rw [filterMap_mass_of_good good, mean, spread_le_iff, Option.some_inj, eq_comm (a := v)]
  simp only [List.forall_mem_map]
  rfl

/-! ### One hook at a load scan (R56, R59, R61 to R63) -/

section Scan

variable {h : Hook} {r : Reading} (t : Settings)

/-- An OVER sample adds to the run of OVER samples, ends the run of good ones, and enters the ring (R59, R61). -/
theorem Hook.scan_of_over (isOver : h.cal.readsOver r) :
    (h.scan t r).overRun = min (h.overRun + 1) 65535 ∧ (h.scan t r).goodRun = 0 ∧
      (h.scan t r).ring = (h.ring ++ [({ raw := r.raw.toInt, mass := none } : Sample)]).drop (h.ring.length + 1 - 16) := by
  simp only [Hook.scan, Calibration.sample_of_over isOver, pushSample_eq]
  exact ⟨rfl, rfl, trivial⟩

/-- A good sample adds to the run of good samples, ends the run of OVER ones, and enters the ring (R59, R61). -/
theorem Hook.scan_of_not_over (isGood : ¬h.cal.readsOver r) :
    (h.scan t r).overRun = 0 ∧ (h.scan t r).goodRun = min (h.goodRun + 1) 65535 ∧
      (h.scan t r).ring = (h.ring ++ [({ raw := r.raw.toInt, mass := some (h.cal.mass r.raw.toInt) } : Sample)]).drop
        (h.ring.length + 1 - 16) := by
  simp only [Hook.scan, Calibration.sample_of_not_over isGood, pushSample_eq]
  exact ⟨rfl, rfl, trivial⟩

/-- What a hook holds before the steady mean of the scan: what it held, or nothing when it enters FAULT (R63). -/
def Hook.keptHeld (h k : Hook) : Option Int := if h.health = .good ∧ k.health = .fault then none else h.held

theorem Hook.scan_held : (h.scan t r).held =
    if (h.scan t r).steady.isSome then (h.scan t r).steady else h.keptHeld (h.scan t r) := rfl

theorem Hook.scan_heldAge : (h.scan t r).heldAge =
    if (h.scan t r).steady.isSome then 0
    else if (h.keptHeld (h.scan t r)).isSome then min (h.heldAge + 1) Config.max16 else 0 := rfl

/-- A steady mean is held (R63). -/
theorem Hook.scan_held_of_steady (steady : (h.scan t r).steady.isSome = true) :
    (h.scan t r).held = (h.scan t r).steady ∧ (h.scan t r).heldAge = 0 := by
  rw [Hook.scan_held, Hook.scan_heldAge, if_pos steady, if_pos steady]
  exact ⟨rfl, rfl⟩

/-- A hook that enters FAULT holds no steady mean (R63). -/
theorem Hook.scan_held_of_fault (unsteady : (h.scan t r).steady = none) (good : h.health = .good)
    (fault : (h.scan t r).health = .fault) : (h.scan t r).held = none := by
  have kept : h.keptHeld (h.scan t r) = none := if_pos ⟨good, fault⟩
  rw [Hook.scan_held, unsteady, kept]
  rfl

/-- Another hook that is not steady keeps the steady mean it held, which grows a scan older (R63). -/
theorem Hook.scan_held_of_not_fault {v : Int} (unsteady : (h.scan t r).steady = none)
    (stays : ¬(h.health = .good ∧ (h.scan t r).health = .fault)) (was : h.held = some v) :
    (h.scan t r).held = some v ∧ (h.scan t r).heldAge = min (h.heldAge + 1) 65535 := by
  have kept : h.keptHeld (h.scan t r) = some v := (if_neg stays).trans was
  rw [Hook.scan_held, Hook.scan_heldAge, unsteady, kept]
  exact ⟨rfl, rfl⟩

end Scan

/-- Settles O48, stage by stage: the sample with its runs and the ring, the health, the steady mean, and what is held of it. -/
theorem a_load_scan_weighs_a_hook : Obligations.A_load_scan_weighs_a_hook := by
  intro h t r count m isOver h' last
  exact ⟨rfl, Hook.scan_of_over t, Hook.scan_of_not_over t, fun good => Hook.nextHealth_of_good good _ _,
    fun fault => Hook.nextHealth_of_fault fault _ _, fun v => steadyMean_eq_some count, Hook.scan_held_of_steady t,
    Hook.scan_held_of_fault t, fun v => Hook.scan_held_of_not_fault t⟩

end Sys2Proof.Machine

namespace Sys2Proof.Machine

/-! ### The timed test (R93) -/

/-- The drain mode consults the compare, no timed end is pending, and the counter is not less than the compare. -/
def DrainTimer.meetsCompare (t : DrainTimer) : Prop :=
  ((t.mode = some .timed ∨ t.mode = some .either) ∧ t.timedPending = false) ∧ t.compare ≤ t.counter

theorem DrainTimer.meetsCompare_iff (t : DrainTimer) :
    (t.consults && decide (t.compare ≤ t.counter) && !t.timedPending) = true ↔ t.meetsCompare := by
  simp only [DrainTimer.consults, DrainTimer.meetsCompare, Bool.and_eq_true, Bool.or_eq_true, beq_iff_eq,
    decide_eq_true_eq, Bool.not_eq_true', and_right_comm]

/-- A timed test that is not met does nothing. -/
theorem DrainTimer.timedTest_of_not_meetsCompare {t : DrainTimer} (unmet : ¬t.meetsCompare) :
    t.timedTest = { timer := t, ends := none } :=
  if_neg (t.meetsCompare_iff.not.mpr unmet)

/-- A timed test that is met in blanking makes the timed end pending. -/
theorem DrainTimer.timedTest_of_inBlanking {t : DrainTimer} (met : t.meetsCompare) (inBlanking : t.inBlanking = true) :
    t.timedTest = { timer := { t with timedPending := true }, ends := none } :=
  (if_pos (t.meetsCompare_iff.mpr met)).trans (if_pos inBlanking)

/-! ### Ticks (R85, R86) -/

/-- The counter of a timer one tick on, below 1023 (R85). -/
def DrainTimer.counted (t : DrainTimer) : DrainTimer := { t with counter := t.counter + 1 }

/-- A tick below 1023 counts and makes the timed test (R85). -/
theorem DrainTimer.tick_of_counter_lt {t : DrainTimer} (low : t.counter < 1023) : t.tick = t.counted.timedTest := if_pos low

/-- A tick at 1023 climbs a range below 7 and makes the timed test (R86). -/
theorem DrainTimer.tick_of_range_lt {t : DrainTimer} (full : t.counter = 1023) (climbs : t.range < 7) :
    t.tick = t.rangeUp.timedTest :=
  (if_neg (by omega)).trans (if_pos climbs)

/-- A tick reported for a timer that does not run changes nothing of its own (R85). -/
theorem exec_drainTimerTick_of_not_running {s : State} {c : Crane} (run : s.phase = .running)
    (stopped : (s.timers.get c).state ≠ .running) : exec (.drainTimerTick c) s = .next (s.endEvent s .loadScan) := by
  change execDrainTimerTick c s = _
  simp [execDrainTimerTick, State.whileRunning, run, State.tickTimer, stopped]

/-- A tick that ends no drain leaves its timer as the tick made it (R85). -/
theorem exec_drainTimerTick_of_goesOn {s : State} {c : Crane} {u : DrainTimer} (run : s.phase = .running)
    (runs : (s.timers.get c).state = .running) (goesOn : (s.timers.get c).tick = { timer := u, ends := none }) :
    exec (.drainTimerTick c) s = .next (s.endEvent { s with timers := s.timers.set c u } .loadScan) := by
  change execDrainTimerTick c s = _
  simp [execDrainTimerTick, State.whileRunning, run, State.tickTimer, runs, State.takeTimer, goesOn]

/-- Settles O41: the tick counts or climbs, and the timed test after it is met in blanking or not at all. -/
theorem a_tick_counts_and_climbs : Obligations.A_tick_counts_and_climbs := by
  intro c s run t heeds
  refine ⟨exec_drainTimerTick_of_not_running run, ?counts, ?countsToCompare, ?climbs, ?climbsToCompare⟩
  case counts =>
    intro runs low unmet
    exact exec_drainTimerTick_of_goesOn run runs
      ((DrainTimer.tick_of_counter_lt low).trans (DrainTimer.timedTest_of_not_meetsCompare unmet))
  case countsToCompare =>
    intro runs low consulted met inBlanking
    exact exec_drainTimerTick_of_goesOn run runs
      ((DrainTimer.tick_of_counter_lt low).trans (DrainTimer.timedTest_of_inBlanking ⟨consulted, met⟩ inBlanking))
  case climbs =>
    intro runs full climbs unmet
    exact exec_drainTimerTick_of_goesOn run runs
      ((DrainTimer.tick_of_range_lt full climbs).trans (DrainTimer.timedTest_of_not_meetsCompare unmet))
  case climbsToCompare =>
    intro runs full climbs consulted met inBlanking
    exact exec_drainTimerTick_of_goesOn run runs
      ((DrainTimer.tick_of_range_lt full climbs).trans (DrainTimer.timedTest_of_inBlanking ⟨consulted, met⟩ inBlanking))

end Sys2Proof.Machine

namespace Sys2Proof.Machine

/-! ### Durations and compares (R86, R88, R91) -/

/-- A range-up keeps the duration: 1024 ticks at a range are 512 at the next (R86). -/
theorem DrainTimer.duration_rangeUp (t : DrainTimer) : t.rangeUp.duration = ({ t with counter := 1024 }).duration := by
  simp only [DrainTimer.duration, DrainTimer.rangeUp, pow_succ]
  congr 1
  omega

/-- The model's quotient rounded up is the library's. -/
theorem ceilDiv_eq_ceilDiv (n d : Nat) : ceilDiv n d = n ⌈/⌉ d := rfl

theorem compareOf_le_iff (hold e k : Nat) : compareOf hold e ≤ k ↔ hold * 2 ≤ 2 ^ e * k := by
  rw [compareOf, ceilDiv_eq_ceilDiv, ceilDiv_le_iff_le_mul (by positivity)]

/-- The compare halved is the compare of the next range: the same counts are not below either (R91). -/
theorem ceilDiv_compareOf (hold e : Nat) : ceilDiv (compareOf hold e) 2 = compareOf hold (e + 1) := by
  refine eq_of_forall_ge_iff fun k => ?_
  rw [ceilDiv_eq_ceilDiv, ceilDiv_le_iff_le_mul two_pos, compareOf_le_iff, compareOf_le_iff, pow_succ, mul_assoc]

/-- A counter that meets the compare of a hold stands at a duration not below the hold (R86). -/
theorem DrainTimer.hold_le_duration {t : DrainTimer} {hold : Nat} (compare : t.compare = compareOf hold t.range)
    (met : t.compare ≤ t.counter) : hold ≤ t.duration := by
  rw [compare, compareOf_le_iff, mul_comm _ t.counter] at met
  exact (Nat.le_div_iff_mul_le two_pos).mpr met

/-! ### The new start range (R100) -/

theorem leastRange_le (sensed fuel e : Nat) : leastRange sensed fuel e ≤ e + fuel := by
  induction fuel generalizing e with
  | zero => exact le_rfl
  | succ fuel ih =>
    have next := ih (e + 1)
    unfold leastRange
    split <;> omega

/-- The least range counts the drain without a range-up when the last one tried does. -/
theorem leastRange_counts {sensed fuel e : Nat} (last : sensed * 2 / 2 ^ (e + fuel) ≤ 1023) :
    sensed * 2 / 2 ^ leastRange sensed fuel e ≤ 1023 := by
  induction fuel generalizing e with
  | zero => exact last
  | succ fuel ih =>
    unfold leastRange
    split
    · assumption
    · exact ih (by rwa [Nat.add_right_comm])

/-- No range tried before the least range counts the drain without a range-up. -/
theorem lt_of_lt_leastRange {sensed fuel e i : Nat} (tried : e ≤ i) (before : i < leastRange sensed fuel e) :
    1023 < sensed * 2 / 2 ^ i := by
  induction fuel generalizing e with
  | zero => exact absurd before tried.not_gt
  | succ fuel ih =>
    unfold leastRange at before
    split at before
    · exact absurd before tried.not_gt
    · rename_i tooLarge
      rcases tried.eq_or_lt with rfl | later
      · exact not_le.mp tooLarge
      · exact ih later before

/-! ### The lesson of a close (R98, R99) -/

section Lesson

variable {s : State} {n : Nat} {k now : ClassEntry}

theorem State.teachClass_of_not_sensed (s : State) (n : Nat) (k : ClassEntry) : s.teachClass (some n) (some k) none = s := rfl

theorem State.teachClass_of_edition_ne (held : s.classes[n]? = some now) (d : Nat) (older : now.edition ≠ k.edition) :
    s.teachClass (some n) (some k) (some d) = s := by
  simp [State.teachClass, held, older]

theorem State.teachClass_of_edition_eq (held : s.classes[n]? = some now) (d : Nat) (same : now.edition = k.edition) :
    s.teachClass (some n) (some k) (some d) = { s with classes := s.classes.set n (now.teach d) } := by
  simp [State.teachClass, held, same]

end Lesson

/-- Settles O46, law by law: a range-up by R86 and R91, the start range by the search for the least, the lesson by its editions. -/
theorem durations_compares_and_lessons : Obligations.Durations_compares_and_lessons := by
  refine ⟨fun _ => rfl, fun t _ => t.duration_rangeUp, ceilDiv_compareOf, fun _ _ => DrainTimer.hold_le_duration, ?range,
    ?lesson⟩
  case range =>
    intro sensed bound
    have last : sensed * 2 / 2 ^ (0 + 7) ≤ 1023 := by omega
    exact ⟨leastRange_le sensed 7 0, leastRange_counts last, fun i => lt_of_lt_leastRange (Nat.zero_le i)⟩
  case lesson =>
    intro s n k now held
    exact ⟨s.teachClass_of_not_sensed n k, State.teachClass_of_edition_ne held, State.teachClass_of_edition_eq held⟩

end Sys2Proof.Machine

namespace Sys2Proof.Machine

/-! ### The book and the feed-demand line (R105, R134) -/

/-- What the law of the book and the rule of the feed-demand line speak of, and whether the part runs. -/
structure BookView where
  phase : Phase
  book : Book
  gauge : Option Nat
  settings : Settings
  feed : Bool

/-- The book of a state with what its laws speak of. -/
def State.bookView (s : State) : BookView :=
  { phase := s.phase, book := s.book, gauge := s.recon.gauge, settings := s.settings, feed := s.lines.feed }

/-- The level that R134 gives the feed-demand line. -/
def BookView.level (m : BookView) : Bool := m.book.state != .invalid && decide (m.book.mass < m.settings.feedLow)

/-- The feed-demand line judged (R134). -/
def BookView.judged (m : BookView) : BookView := { m with feed := m.level }

/-- The book after a reconciliation with the gauge mass `g` (R126 to R128). -/
def Book.reconciled (b : Book) (t : Settings) (g : Nat) : Book :=
  let d : Int := (b.mass : Int) - g
  if b.state = .invalid then b.reseed g
  else if d.natAbs ≤ t.alarm then b.trim (trimOf t d)
  else { b with state := .drifting }

/-- The book rebased to the gauge mass `g` (R131). -/
def Book.rebased (b : Book) (g : Nat) : Book := { b.adjust ((b.mass : Int) - g) with mass := g, state := .valid }

/-- One change of the book of a running part, with the feed-demand line as its rule judges it: the flows of section 5.4, dross zinc
left unallocated (R157), the book requests (R131, R132), a TUNE KETTLE (R172, R173), and a bath scan that reconciles (R124) or not. -/
inductive BookMove (m : BookView) : BookView → Prop
  | charged (x : Nat) : BookMove m { m with book := m.book.chargeFlow x }.judged
  | picked (x : Nat) : BookMove m { m with book := m.book.pickupFlow x }.judged
  | drossed (x : Nat) : BookMove m { m with book := m.book.drossFlow x }.judged
  | ashed (x : Nat) : BookMove m { m with book := m.book.ashFlow x }.judged
  | unallocated (x : Nat) : BookMove m { m with book := m.book.addUnallocated x }
  | rebased (g : Nat) (known : m.gauge = some g) : BookMove m { m with book := m.book.rebased g }.judged
  | opened (x : Nat) : BookMove m { m with book := m.book.openAt x }.judged
  | tuned (t : Settings) (gain : m.settings.trimGain ≤ 16 → t.trimGain ≤ 16) :
      BookMove m
        (if m.settings.feedLow = t.feedLow then { m with settings := t } else { m with settings := t }.judged)
  | reconciled (g : Nat) :
      BookMove m { m with book := m.book.reconciled m.settings g, gauge := some g }.judged
  | scanned : BookMove m m.judged

/-- From the book of one state to that of another by changes of the book alone. -/
def State.bookPath (s t : State) : Prop := Relation.ReflTransGen BookMove s.bookView t.bookView

theorem State.bookPath.trans {s t u : State} (h : s.bookPath t) (h' : t.bookPath u) : s.bookPath u :=
  Relation.ReflTransGen.trans h h'

theorem State.bookPath_refl (s : State) : s.bookPath s := Relation.ReflTransGen.refl

theorem State.bookPath_of_kept {s t : State} (h : t.bookView = s.bookView) : s.bookPath t := by
  rw [State.bookPath, h]

theorem State.bookPath_of_move {s t : State} {m : BookView} (move : BookMove s.bookView m) (h : t.bookView = m) :
    s.bookPath t := by
  rw [State.bookPath, h]
  exact .single move

/-! ### Operations that leave the book and the feed-demand line alone -/

section BookFrames

variable (s : State) (c : Crane) (x : CraneContext)

@[simp] theorem State.setCrane_bookView : (s.setCrane c x).bookView = s.bookView := rfl

@[simp] theorem State.idleCranes_bookView (tandem : Bool) (mark : Option Nat) :
    (s.idleCranes c tandem mark).bookView = s.bookView := by
  unfold State.idleCranes
  split <;> rfl

@[simp] theorem State.queueRecord_bookView (b : RecordBody) : (s.queueRecord b).bookView = s.bookView := rfl

@[simp] theorem State.notify_bookView (p : Port) (n : Notice) : (s.notify p n).bookView = s.bookView := rfl

@[simp] theorem State.notifyAll_bookView (n : Notice) : (s.notifyAll n).bookView = s.bookView := by simp [State.notifyAll]

@[simp] theorem State.notifyEntry_bookView (tandem : Bool) (n : Notice) :
    (s.notifyEntry c tandem n).bookView = s.bookView := by
  unfold State.notifyEntry
  split <;> rfl

@[simp] theorem State.dropLive_bookView (n : Nat) : (s.dropLive n).bookView = s.bookView := rfl

@[simp] theorem State.modifyJob_bookView (i : Nat) (f : JobSlot → JobSlot) : (s.modifyJob i f).bookView = s.bookView := rfl

@[simp] theorem State.writeDue_bookView (d : Deadline) : (s.writeDue d).bookView = s.bookView := rfl

@[simp] theorem State.writeNow_bookView (keys : List StoreKey) : (s.writeNow keys).bookView = s.bookView := rfl

@[simp] theorem State.setSlot_bookView (p : Port) (slot : AnswerSlot) : (s.setSlot p slot).bookView = s.bookView := rfl

@[simp] theorem State.endTransfer_bookView (p : Port) : (s.endTransfer p).bookView = s.bookView := rfl

@[simp] theorem State.endBlanking_bookView : (s.endBlanking c).bookView = s.bookView := rfl

@[simp] theorem State.judgeStill_bookView (new : State) : (s.judgeStill new).bookView = new.bookView := by
  unfold State.judgeStill
  split
  · rfl
  · split <;> rfl

@[simp] theorem State.judgeLines_bookView : s.judgeLines.bookView = s.bookView := rfl

@[simp] theorem State.endEvent_bookView (new : State) (d : Deadline) : (s.endEvent new d).bookView = new.bookView :=
  s.judgeStill_bookView new

@[simp] theorem State.endRequest_bookView (new : State) : (s.endRequest new).bookView = new.bookView := by
  simp [State.endRequest, State.writeThrough]

@[simp] theorem State.announceAll_bookView (closed : List Nat) : (s.announceAll closed).bookView = s.bookView := by
  induction closed generalizing s with
  | nil => rfl
  | cons i rest ih => exact ih (s.announceClosed i)

@[simp] theorem State.runCloseTest_bookView (i : Nat) : (s.runCloseTest i).1.bookView = s.bookView := by
  unfold State.runCloseTest
  split <;> rfl

@[simp] theorem State.fallOpenDip_bookView (i : Nat) : (s.fallOpenDip i).1.bookView = s.bookView := by
  simp [State.fallOpenDip]

@[simp] theorem State.endDip_bookView (job : Option JobRef) : (s.endDip job).bookView = s.bookView := by
  unfold State.endDip
  split <;> simp

@[simp] theorem State.raiseOpenDip_bookView (job : Option JobRef) : (s.raiseOpenDip job).bookView = s.bookView := by
  unfold State.raiseOpenDip
  split <;> rfl

@[simp] theorem State.admitCrane_bookView (a : ReserveArgs) : (s.admitCrane c a).bookView = s.bookView := by
  unfold State.admitCrane
  dsimp only
  split <;> exact State.raiseOpenDip_bookView _ _

@[simp] theorem State.endReservation_bookView (mark : Option Nat) : (s.endReservation c mark).bookView = s.bookView := by
  simp only [State.endReservation, State.endDip_bookView, State.dropLive_bookView, State.idleCranes_bookView]
  rfl

@[simp] theorem State.endFeed_bookView (mark : Option Nat) : (s.endFeed mark).bookView = s.bookView := rfl

@[simp] theorem State.endEntry_bookView : (s.endEntry c).bookView = s.bookView := by
  simp only [State.endEntry, State.dropLive_bookView, State.idleCranes_bookView]
  rfl

@[simp] theorem State.dropJob_bookView (job : Option JobRef) : (s.dropJob job).1.bookView = s.bookView := by
  unfold State.dropJob
  split <;> simp

@[simp] theorem State.dropPiece_bookView : (s.dropPiece c).bookView = s.bookView := by
  simp only [State.dropPiece, State.announceAll_bookView, State.queueRecord_bookView, State.dropJob_bookView,
    State.dropLive_bookView, State.idleCranes_bookView]
  rfl

@[simp] theorem State.creditEntry_bookView (k : Closing) : (s.creditEntry x k).1.bookView = s.bookView := by
  unfold State.creditEntry
  split
  · simp only [State.creditJob, State.fallOpenDip_bookView]
    rfl
  · rfl

@[simp] theorem State.teachClass_bookView (n : Option Nat) (k : Option ClassEntry) (d : Option Nat) :
    (s.teachClass n k d).bookView = s.bookView := by
  unfold State.teachClass
  split
  · split
    · split <;> rfl
    · rfl
  · rfl

@[simp] theorem State.endWatch_bookView (k : Closing) : (s.endWatch c k).bookView = s.bookView := rfl

@[simp] theorem State.startDrain_bookView (k : ClassEntry) : (s.startDrain c k).bookView = s.bookView := by
  unfold State.startDrain
  dsimp only
  split
  · exact State.notifyEntry_bookView _ _ _ _
  · rfl

@[simp] theorem State.lapseEntry_bookView (c : Context) : (s.lapseEntry c).bookView = s.bookView := by
  unfold State.lapseEntry
  split
  · cases c <;> simp [State.lapseCrane, State.lapseFeed]
  · rfl

@[simp] theorem State.runOut_bookView (c : Context) : (s.runOut c).bookView = s.bookView := by
  unfold State.runOut
  split <;> simp

@[simp] theorem State.runOuts_bookView : s.runOuts.bookView = s.bookView := by simp [State.runOuts]

@[simp] theorem State.expireWithin_bookView (lead : Nat) : (s.expireWithin c lead).bookView = s.bookView := by
  rw [State.expireWithin_frame]
  rfl

@[simp] theorem State.elapse_bookView : s.elapse.bookView = s.bookView := by
  rw [State.elapse_frame]
  rfl

@[simp] theorem State.scanHook_bookView (r : Reading) : (s.scanHook c r).bookView = s.bookView := by
  unfold State.scanHook State.faultHook State.noticeFault
  dsimp only
  split
  · split <;> rfl
  · rfl

@[simp] theorem State.reachAfter_bookView : (s.reachAfter c).bookView = s.bookView := by
  unfold State.reachAfter
  dsimp only
  split <;> rfl

@[simp] theorem State.fallStop_bookView : s.fallStop.bookView = s.bookView := by
  unfold State.fallStop
  split
  · rfl
  · exact State.notifyAll_bookView _ _

@[simp] theorem State.riseStop_bookView : s.riseStop.bookView = s.bookView := by
  unfold State.riseStop
  split <;> rfl

/-- A fold of operations that each leave the book leaves it. -/
theorem foldl_bookView {α : Type} {f : State → α → State} (hf : ∀ t a, (f t a).bookView = t.bookView) (xs : List α) :
    (xs.foldl f s).bookView = s.bookView := by
  induction xs generalizing s with
  | nil => rfl
  | cons a rest ih => exact (ih (f s a)).trans (hf s a)

end BookFrames

/-! ### What the rules of the book do to it -/

@[simp] theorem State.judgeFeed_bookView (s : State) : s.judgeFeed.bookView = s.bookView.judged := by
  have level : s.bookView.level = s.feedLevel := rfl
  unfold State.judgeFeed BookView.judged
  rw [level]
  split
  · rename_i rises
    simp only [Bool.and_eq_true] at rises
    rw [rises.1]
    rfl
  · rfl

/-- The book replaced and the feed-demand line judged. -/
@[simp] theorem State.setBook_bookView (s : State) (b : Book) :
    (s.setBook b).bookView = { s.bookView with book := b }.judged := State.judgeFeed_bookView _

/-- A change of the book that its rule judges the feed-demand line after. -/
theorem State.setBook_bookPath {s : State} {b : Book} (move : BookMove s.bookView { s.bookView with book := b }.judged) :
    s.bookPath (s.setBook b) := State.bookPath_of_move move (s.setBook_bookView b)

theorem State.bookPickup_bookPath (s : State) (k : Closing) : s.bookPath (s.bookPickup k) := by
  unfold State.bookPickup
  split
  · exact State.setBook_bookPath (.picked _)
  · exact s.bookPath_refl

/-- An allocation of a dross zinc leaves the book as it is, or counts the zinc as unallocated (R157). -/
theorem State.allocate_bookPath (s : State) (zc : Nat) : s.bookPath (s.allocate zc).1 := by
  have close := fun t : State => foldl_bookView t (f := State.closeSlot) fun _ _ => rfl
  unfold State.allocate
  dsimp only
  split
  · exact State.bookPath_of_move (.unallocated zc) (close _ _)
  · refine State.bookPath_of_kept ((close _ _).trans ?_)
    exact foldl_bookView s (fun _ _ => State.modifyJob_bookView _ _ _) _

theorem State.accountWork_bookPath (s : State) (c : Crane) (x : CraneContext) (k : Closing) :
    s.bookPath (s.accountWork c x k) :=
  (s.bookPickup_bookPath k).trans (State.bookPath_of_kept (by simp [State.accountWork]))

theorem State.accountDross_bookPath (s : State) (c : Crane) (x : CraneContext) (k : Closing) :
    s.bookPath (s.accountDross c x k) := by
  unfold State.accountDross
  dsimp only
  split
  · have flow : s.bookPath (s.setBook (s.book.drossFlow (drossZinc k.credited s.settings.drossFraction))) :=
      State.setBook_bookPath (.drossed _)
    refine flow.trans ((State.allocate_bookPath _ (drossZinc k.credited s.settings.drossFraction)).trans ?_)
    exact State.bookPath_of_kept (by simp)
  · exact State.bookPath_of_kept (by simp)

theorem State.account_bookPath (s : State) (c : Crane) (cause : EndCause) (reported : Option Int) :
    s.bookPath (s.account c cause reported) := by
  unfold State.account
  dsimp only
  split
  · exact State.accountDross_bookPath (s.endWatch c _) c _ _
  · exact State.accountWork_bookPath (s.endWatch c _) c _ _

theorem State.takeTimer_bookPath (s : State) (c : Crane) (t : TimerStep) (reported : Option Int) :
    s.bookPath (s.takeTimer c t reported) := by
  unfold State.takeTimer State.endDrain
  dsimp only
  split
  · split
    · exact State.account_bookPath { s with timers := s.timers.set c t.timer } c _ reported
    · exact State.bookPath_of_kept rfl
  · exact State.bookPath_of_kept rfl

theorem State.scanWatch_bookPath (s : State) (c : Crane) : s.bookPath (s.scanWatch c) := by
  unfold State.scanWatch State.scanBlanking State.scanAfter
  dsimp only
  split
  · exact s.bookPath_refl
  · split <;> exact State.bookPath_of_kept rfl
  · split
    · exact State.takeTimer_bookPath { s with watches := s.watches.set c _ } c _ _
    · exact State.bookPath_of_kept rfl

theorem State.loadScan_bookPath (s : State) (rA rB : Reading) (first : Crane) : s.bookPath (s.loadScan rA rB first) := by
  unfold State.loadScan
  refine State.bookPath.trans (t := s.scanHooks rA rB) (State.bookPath_of_kept (by simp [State.scanHooks])) ?_
  refine (State.scanWatch_bookPath _ first).trans ?_
  refine State.bookPath.trans (State.bookPath_of_kept (State.endEvent_bookView s _ .loadScan)) ?_
  exact (State.scanWatch_bookPath _ first.other).trans (State.bookPath_of_kept (by simp))

/-- A reconciliation gives the book the gauge mass and what the branches of R126 to R128 make of it. -/
theorem State.reconcile_bookView (s : State) :
    s.reconcile.bookView =
      { s.bookView with
        book := s.book.reconciled s.settings (gaugeMass s.settings (meanLevel s.bath.levels))
        gauge := some (gaugeMass s.settings (meanLevel s.bath.levels)) } := by
  unfold State.reconcile Book.reconciled
  dsimp only
  split
  · rfl
  · split
    · split <;> rfl
    · rfl

@[simp] theorem State.judgeQuiet_bookView (s : State) (stored : Bool) : (s.judgeQuiet stored).bookView = s.bookView := by
  unfold State.judgeQuiet
  split <;> rfl

/-- A bath scan's first stages: both channels, and what the level channel's fall into FAULT leaves (R117 to R120). -/
def State.scanChannels (s : State) (level temp : Reading) : State :=
  let lv := validReading level s.settings.levelZero s.settings.levelSpan 40000
  let tv := validReading temp s.settings.tempZero s.settings.tempSpan 8000
  { s with
    bath := (s.bath.scanLevel lv).scanTemp tv
    recon :=
      { s.recon with
        quietLevels :=
          if entersFault s.bath.level.health (s.bath.level.scan lv.isSome).health then 0 else s.recon.quietLevels } }

/-- A bath scan up to the judgement of quiet (R117 to R123). -/
def State.scanQuiet (s : State) (level temp : Reading) : State :=
  (s.scanChannels level temp).judgeQuiet
    (s.bath.storesLevel (validReading level s.settings.levelZero s.settings.levelSpan 40000))

/-- A bath scan reconciles or not, and judges the feed-demand line (R117). -/
theorem State.scanBath_eq (s : State) (level temp : Reading) :
    s.scanBath level temp =
      (if (s.scanQuiet level temp).reconciles then (s.scanQuiet level temp).reconcile
        else s.scanQuiet level temp).judgeFeed := rfl

@[simp] theorem State.scanQuiet_bookView (s : State) (level temp : Reading) :
    (s.scanQuiet level temp).bookView = s.bookView := State.judgeQuiet_bookView _ _

theorem State.scanBath_bookPath (s : State) (level temp : Reading) : s.bookPath (s.scanBath level temp) := by
  refine State.bookPath.trans (State.bookPath_of_kept (s.scanQuiet_bookView level temp)) ?_
  rw [State.scanBath_eq]
  split
  · exact State.bookPath_of_move (.reconciled _)
      ((State.judgeFeed_bookView _).trans (congrArg BookView.judged (State.reconcile_bookView _)))
  · exact State.bookPath_of_move .scanned (State.judgeFeed_bookView _)

end Sys2Proof.Machine

namespace Sys2Proof.Machine

/-! ### Settings given by a list (R172) -/

/-- A setting reads as the value put, where the value lies in the setting's range. -/
theorem Settings.get_put_same (t : Settings) {p : TunePair} (ok : p.ok = true) : (t.put p.number p.value).get p.number = p.value := by
  simp only [TunePair.ok, Bool.and_eq_true, decide_eq_true_eq] at ok
  obtain ⟨⟨⟨first, last⟩, low⟩, -⟩ := ok
  obtain ⟨n, number⟩ : ∃ n, p.number = n := ⟨_, rfl⟩
  rw [number] at first last low ⊢
  change n ≤ 21 at last
  interval_cases n <;> simp only [settingRange, Settings.put, Settings.get] at low ⊢ <;> omega

section Tuned

variable {t : Settings} {ps : List TunePair} {n : Nat}

/-- A list leaves the settings that it does not name. -/
theorem Settings.get_tuned_of_not_named (h : ∀ p ∈ ps, p.number ≠ n) : (t.tuned ps).get n = t.get n := by
  induction ps generalizing t with
  | nil => rfl
  | cons p ps ih =>
    obtain ⟨other, rest⟩ := List.forall_mem_cons.mp h
    exact (ih rest).trans (t.get_put_other _ other.symm)

/-- A list gives a setting that it names the value of one of its pairs. -/
theorem Settings.get_tuned_of_named (ok : ∀ p ∈ ps, p.ok = true) (named : ∃ p ∈ ps, p.number = n) :
    ∃ p ∈ ps, p.number = n ∧ (t.tuned ps).get n = p.value := by
  induction ps generalizing t with
  | nil => simp at named
  | cons q ps ih =>
    obtain ⟨okHead, okTail⟩ := List.forall_mem_cons.mp ok
    by_cases later : ∃ p ∈ ps, p.number = n
    · obtain ⟨p, mem, number, value⟩ := ih (t := t.put q.number q.value) okTail later
      exact ⟨p, List.mem_cons_of_mem q mem, number, value⟩
    · push Not at later
      obtain rfl : q.number = n := by
        obtain ⟨p, mem, number⟩ := named
        rcases List.mem_cons.mp mem with rfl | mem
        · exact number
        · exact absurd number (later p mem)
      exact ⟨q, List.mem_cons_self, rfl, (Settings.get_tuned_of_not_named later).trans (t.get_put_same okHead)⟩

/-- A list of which every pair is in range leaves the trim gain in its range. -/
theorem Settings.tuned_trimGain_le (ok : ∀ p ∈ ps, p.ok = true) (gain : t.trimGain ≤ 16) : (t.tuned ps).trimGain ≤ 16 := by
  by_cases named : ∃ p ∈ ps, p.number = 9
  · obtain ⟨p, mem, number, value⟩ := Settings.get_tuned_of_named (t := t) ok named
    have range := ok p mem
    simp only [TunePair.ok, number, Bool.and_eq_true, decide_eq_true_eq, settingRange] at range
    simp only [Settings.get] at value
    omega
  · push Not at named
    have kept := Settings.get_tuned_of_not_named (t := t) named
    simp only [Settings.get] at kept
    omega

end Tuned

/-! ### The law of the book (R105) -/

/-- What the opening mass and the totals say that M and adjusted come to (R105). -/
def Book.owed (b : Book) : Int := b.opening + b.charged - b.picked - b.dross - b.ash

/-- The law of one book: VALID or DRIFTING and not SATURATED, it balances (R105). -/
def Book.sound (b : Book) : Prop := b.state ≠ .invalid → b.saturated = false → b.mass + b.adjusted = b.owed

theorem Book.balanced_iff (b : Book) : b.balanced ↔ b.mass + b.adjusted = b.owed := by
  unfold Book.balanced Book.owed
  omega

/-- The law of the book, read off its view. -/
def BookView.lawful (m : BookView) : Prop := m.book.sound ∧ (m.gauge.isSome = true → m.book.state ≠ .invalid)

theorem State.bookLawful_iff (s : State) : s.bookLawful ↔ s.bookView.lawful := by
  simp only [State.bookLawful, Book.balanced_iff]
  rfl

/-- Adjusted takes a change whole, unless the book is SATURATED after it (R108). -/
theorem Book.adjust_unsaturated {b : Book} {a : Int} (h : (b.adjust a).saturated = false) :
    b.saturated = false ∧ (b.adjust a).adjusted = b.adjusted + a := by
  simp only [Book.adjust, clampInt, Bool.or_eq_false_iff, decide_eq_false_iff_not] at h ⊢
  exact ⟨h.1.1, by rw [if_neg h.1.2, if_neg h.2]⟩

/-- A debit falls on M and adjusted together, unless the book is SATURATED after it (R110). -/
theorem Book.debit_unsaturated {b : Book} {d : Nat} (h : (b.debit d).saturated = false) :
    b.saturated = false ∧ ((b.debit d).mass : Int) + (b.debit d).adjusted = b.mass + b.adjusted - d := by
  unfold Book.debit at h ⊢
  split at h
  · rename_i short
    obtain ⟨sat, adjusted⟩ := Book.adjust_unsaturated h
    rw [if_pos short, adjusted]
    exact ⟨sat, by simp only [Book.adjust]; omega⟩
  · rename_i enough
    rw [if_neg enough]
    exact ⟨h, by dsimp only; omega⟩

/-- A credit falls to M and adjusted together, unless the book is SATURATED after it (R111). -/
theorem Book.credit_unsaturated {b : Book} {m : Nat} (h : (b.credit m).saturated = false) :
    b.saturated = false ∧ ((b.credit m).mass : Int) + (b.credit m).adjusted = b.mass + b.adjusted + m := by
  unfold Book.credit at h ⊢
  split at h
  · rename_i excess
    obtain ⟨sat, adjusted⟩ := Book.adjust_unsaturated h
    rw [if_pos excess, adjusted]
    exact ⟨sat, by simp only [Book.adjust]; omega⟩
  · rename_i fits
    rw [if_neg fits]
    exact ⟨h, by dsimp only; omega⟩

/-- A debit leaves the state of the book, its opening mass and its totals. -/
theorem Book.debit_frame (b : Book) (d : Nat) :
    b.debit d =
      { b with mass := (b.debit d).mass, adjusted := (b.debit d).adjusted, saturated := (b.debit d).saturated } := by
  unfold Book.debit
  split <;> rfl

/-- A credit leaves the state of the book, its opening mass and its totals. -/
theorem Book.credit_frame (b : Book) (m : Nat) :
    b.credit m =
      { b with mass := (b.credit m).mass, adjusted := (b.credit m).adjusted, saturated := (b.credit m).saturated } := by
  unfold Book.credit
  split <;> rfl

@[simp] theorem Book.debit_state (b : Book) (d : Nat) : (b.debit d).state = b.state := by rw [Book.debit_frame]

@[simp] theorem Book.credit_state (b : Book) (m : Nat) : (b.credit m).state = b.state := by rw [Book.credit_frame]

@[simp] theorem Book.chargeFlow_state (b : Book) (x : Nat) : (b.chargeFlow x).state = b.state := Book.credit_state _ x

@[simp] theorem Book.pickupFlow_state (b : Book) (x : Nat) : (b.pickupFlow x).state = b.state := Book.debit_state _ x

@[simp] theorem Book.drossFlow_state (b : Book) (x : Nat) : (b.drossFlow x).state = b.state := Book.debit_state _ x

@[simp] theorem Book.ashFlow_state (b : Book) (x : Nat) : (b.ashFlow x).state = b.state := Book.debit_state _ x

/-- A debit after its total has been booked keeps the law: `b` is the book before both, `c` the one between them. -/
theorem Book.sound_debit {b c : Book} {d : Nat} (law : b.sound) (state : c.state = b.state)
    (kept : c.mass + c.adjusted = b.mass + b.adjusted)
    (booked : c.saturated = false → b.saturated = false ∧ c.owed = b.owed - d) : (c.debit d).sound := by
  intro valid sat
  obtain ⟨between, moved⟩ := Book.debit_unsaturated sat
  obtain ⟨before, owed⟩ := booked between
  rw [Book.debit_state, state] at valid
  have same : (c.debit d).owed = c.owed := by rw [Book.debit_frame]; rfl
  have balance := law valid before
  omega

theorem Book.sound_pickupFlow {b : Book} (law : b.sound) (x : Nat) : (b.pickupFlow x).sound := by
  refine Book.sound_debit law rfl rfl fun sat => ?_
  simp only [Book.markTotal, Book.owed, cappedTotal, Bool.or_eq_false_iff, decide_eq_false_iff_not] at sat ⊢
  exact ⟨sat.1, by omega⟩

theorem Book.sound_drossFlow {b : Book} (law : b.sound) (x : Nat) : (b.drossFlow x).sound := by
  refine Book.sound_debit law rfl rfl fun sat => ?_
  simp only [Book.markTotal, Book.owed, cappedTotal, Bool.or_eq_false_iff, decide_eq_false_iff_not] at sat ⊢
  exact ⟨sat.1, by omega⟩

theorem Book.sound_ashFlow {b : Book} (law : b.sound) (x : Nat) : (b.ashFlow x).sound := by
  refine Book.sound_debit law rfl rfl fun sat => ?_
  simp only [Book.markTotal, Book.owed, cappedTotal, Bool.or_eq_false_iff, decide_eq_false_iff_not] at sat ⊢
  exact ⟨sat.1, by omega⟩

theorem Book.sound_chargeFlow {b : Book} (law : b.sound) (x : Nat) : (b.chargeFlow x).sound := by
  intro valid sat
  obtain ⟨between, moved⟩ := Book.credit_unsaturated sat
  have same := Book.credit_frame (({ b with charged := cappedTotal (b.charged + x) }).markTotal (b.charged + x)) x
  change b.chargeFlow x = _ at same
  rw [same] at valid ⊢
  simp only [Book.markTotal, Bool.or_eq_false_iff, decide_eq_false_iff_not] at between
  have balance := law valid between.1
  simp only [Book.markTotal, Book.owed, cappedTotal] at balance moved ⊢
  omega

theorem Book.sound_addUnallocated {b : Book} (law : b.sound) (x : Nat) : (b.addUnallocated x).sound := by
  intro valid sat
  simp only [Book.addUnallocated, Book.markTotal, Bool.or_eq_false_iff] at sat
  exact law valid sat.1

theorem Book.sound_openAt (b : Book) (x : Nat) : (b.openAt x).sound := by
  intro _ _
  simp [Book.openAt, Book.owed]

/-- A rebase moves M by D and adjusted by -D (R131). -/
theorem Book.sound_rebased {b : Book} (law : b.sound) (known : b.state ≠ .invalid) (g : Nat) : (b.rebased g).sound := by
  intro _ sat
  obtain ⟨before, adjusted⟩ := Book.adjust_unsaturated (b := b) (a := (b.mass : Int) - g) sat
  have balance := law known before
  have same : (b.rebased g).owed = b.owed := rfl
  have moved : (b.rebased g).adjusted = b.adjusted + (b.mass - g) := adjusted
  have mass : (b.rebased g).mass = g := rfl
  omega

/-- The trim lies between 0 and D, for a trim gain of its range (R127). -/
theorem trimOf_between {t : Settings} (gain : t.trimGain ≤ 16) (d : Int) :
    (0 ≤ d → 0 ≤ trimOf t d ∧ trimOf t d ≤ d) ∧ (d ≤ 0 → d ≤ trimOf t d ∧ trimOf t d ≤ 0) := by
  have quotient : ∀ {x : Int}, 0 ≤ x → 0 ≤ (x * t.trimGain).tdiv 16 ∧ (x * t.trimGain).tdiv 16 ≤ x := fun {x} nonneg => by
    have product : 0 ≤ x * t.trimGain := by positivity
    have bound : x * t.trimGain ≤ x * 16 := mul_le_mul_of_nonneg_left (by exact_mod_cast gain) nonneg
    rw [Int.tdiv_eq_ediv_of_nonneg product]
    omega
  unfold trimOf clampInt
  constructor
  · intro nonneg
    have := quotient nonneg
    split_ifs <;> omega
  · intro nonpos
    have := quotient (x := -d) (by omega)
    rw [neg_mul, Int.neg_tdiv] at this
    split_ifs <;> omega

/-- A trim by at most M moves M by A and adjusted by -A (R127). -/
theorem Book.sound_trim {b : Book} (law : b.sound) (known : b.state ≠ .invalid) {a : Int} (fits : a ≤ b.mass) :
    (b.trim a).sound := by
  intro _ sat
  obtain ⟨before, adjusted⟩ := Book.adjust_unsaturated (a := a) sat
  have balance := law known before
  have same : (b.trim a).owed = b.owed := rfl
  have moved : (b.trim a).adjusted = b.adjusted + a := adjusted
  have mass : (b.trim a).mass = ((b.mass : Int) - a).toNat := rfl
  omega

/-- A reconciliation keeps the law, for a trim gain of its range, and leaves no INVALID book (R126 to R128). -/
theorem Book.sound_reconciled {b : Book} {t : Settings} (law : b.sound) (gain : t.trimGain ≤ 16) (g : Nat) :
    (b.reconciled t g).sound ∧ (b.reconciled t g).state ≠ .invalid := by
  unfold Book.reconciled
  dsimp only
  split
  · exact ⟨fun _ _ => by simp [Book.reseed, Book.owed], by simp [Book.reseed]⟩
  · rename_i known
    split
    · refine ⟨Book.sound_trim law known ?_, by simp [Book.trim, Book.adjust]⟩
      obtain ⟨above, below⟩ := trimOf_between gain ((b.mass : Int) - g)
      omega
    · exact ⟨fun _ => law known, by simp⟩

/-- Every change of the book keeps its law, and the trim gain in its range. -/
theorem BookMove.keeps_lawful {m m' : BookView} (move : BookMove m m') (h : m.lawful ∧ m.settings.trimGain ≤ 16) :
    m'.lawful ∧ m'.settings.trimGain ≤ 16 := by
  obtain ⟨⟨law, known⟩, gain⟩ := h
  cases move with
  | charged x => exact ⟨⟨Book.sound_chargeFlow law x, by simpa [BookView.judged] using known⟩, gain⟩
  | picked x => exact ⟨⟨Book.sound_pickupFlow law x, by simpa [BookView.judged] using known⟩, gain⟩
  | drossed x => exact ⟨⟨Book.sound_drossFlow law x, by simpa [BookView.judged] using known⟩, gain⟩
  | ashed x => exact ⟨⟨Book.sound_ashFlow law x, by simpa [BookView.judged] using known⟩, gain⟩
  | unallocated x => exact ⟨⟨Book.sound_addUnallocated law x, known⟩, gain⟩
  | rebased g formed =>
    exact ⟨⟨Book.sound_rebased law (known (by simp [formed])) g, fun _ => by simp [BookView.judged, Book.rebased]⟩, gain⟩
  | opened x => exact ⟨⟨Book.sound_openAt m.book x, fun _ => by simp [BookView.judged, Book.openAt]⟩, gain⟩
  | tuned t tunedGain => split <;> exact ⟨⟨law, known⟩, tunedGain gain⟩
  | reconciled g =>
    obtain ⟨sound, valid⟩ := Book.sound_reconciled law gain g
    exact ⟨⟨sound, fun _ => valid⟩, gain⟩
  | scanned => exact ⟨⟨law, known⟩, gain⟩

/-- Every change of the book leaves the feed-demand line at the level of its rule (R134). -/
theorem BookMove.keeps_level {m m' : BookView} (move : BookMove m m') (h : m.feed = m.level) : m'.feed = m'.level := by
  cases move with
  | unallocated x => exact h
  | tuned t gain =>
    split
    · rename_i same
      simpa [BookView.level, same] using h
    · rfl
  | _ => rfl

theorem BookMove.keeps_phase {m m' : BookView} (move : BookMove m m') : m'.phase = m.phase := by
  cases move with
  | tuned t gain => split <;> rfl
  | _ => rfl

/-- What every change of the book keeps, a path keeps. -/
theorem State.bookPath.keeps {P : BookView → Prop} (keep : ∀ m m' : BookView, BookMove m m' → P m → P m') {s t : State}
    (path : s.bookPath t) (h : P s.bookView) : P t.bookView := by
  unfold State.bookPath at path
  generalize t.bookView = m at path
  induction path with
  | refl => exact h
  | tail _ move ih => exact keep _ _ move ih

theorem State.bookPath.phase {s t : State} (path : s.bookPath t) : t.phase = s.phase :=
  path.keeps (P := fun m => m.phase = s.phase) (fun _ _ move h => move.keeps_phase.trans h) rfl

end Sys2Proof.Machine

namespace Sys2Proof.Machine

/-! ### What the owning rules do to the book -/

/-- What a rule makes of the book: a refusal or a read leaves it. -/
def Reply.bookPath (s : State) : Reply → Prop
  | .done _ new => s.bookPath new
  | .refused _ | .told _ => True

/-- A rule whose new state has the book and the feed-demand line of the old one. -/
theorem Reply.bookPath_done_of_kept {s new : State} {ans : List Byte} (h : new.bookView = s.bookView) :
    (Reply.done ans new).bookPath s := State.bookPath_of_kept h

theorem chargeInRule_bookPath (s : State) : (chargeInRule s).bookPath s := by
  unfold chargeInRule
  split
  · exact State.bookPath.trans (t := s.setBook (s.book.chargeFlow (creditedCharge (numberOr0 s.feed.mass))))
      (State.setBook_bookPath (.charged _)) (State.bookPath_of_kept (by simp))
  · trivial

theorem skimRule_bookPath (body : List Byte) (s : State) : (skimRule body s).bookPath s := by
  unfold skimRule
  dsimp only
  split
  · trivial
  · exact State.bookPath.trans
      (t := s.setBook (s.book.ashFlow (fraction256 (min (readU16 body) 20000) s.settings.ashFraction)))
      (State.setBook_bookPath (.ashed _)) (State.bookPath_of_kept (by simp))

theorem rebaseRule_bookPath (s : State) : (rebaseRule s).bookPath s := by
  unfold rebaseRule
  split
  · trivial
  · rename_i g known
    exact State.setBook_bookPath (.rebased g known)

theorem openBookRule_bookPath (body : List Byte) (s : State) : (openBookRule body s).bookPath s :=
  State.bookPath.trans (t := s.setBook (s.book.openAt (readU32 body))) (State.setBook_bookPath (.opened _))
    (State.bookPath_of_kept (by simp))

/-- A change of calibration leaves the book (R121). -/
@[simp] theorem State.recalibrate_bookView (s : State) (old new : Settings) :
    (s.recalibrate old new).bookView = s.bookView := by
  unfold State.recalibrate
  dsimp only
  split <;> split <;> rfl

theorem tuneKettleRule_bookPath (body : List Byte) (s : State) : (tuneKettleRule body s).bookPath s := by
  unfold tuneKettleRule
  dsimp only
  split
  · rename_i ok
    simp only [tuneOk, Bool.and_eq_true, List.all_eq_true] at ok
    refine State.bookPath_of_move (.tuned _ (Settings.tuned_trimGain_le ok.1.1)) ?_
    unfold State.tune
    dsimp only
    split
    · rename_i same
      rw [State.recalibrate_bookView]
      exact (if_pos same).symm
    · rename_i moved
      rw [State.judgeFeed_bookView, State.recalibrate_bookView]
      exact (if_neg moved).symm
  · trivial

theorem leaveRule_bookPath (c : Crane) (s : State) : (leaveRule c s).bookPath s := by
  unfold leaveRule
  dsimp only
  split
  · trivial
  · split
    · exact State.bookPath_of_kept (by simp)
    · exact (s.account_bookPath c .earlyLeave none).trans (State.bookPath_of_kept (by simp))

/-- A rule of a crane's request does to the book what it does for each crane. -/
theorem byCrane_bookPath {p : Port} {rule : Crane → Reply} {s : State} (h : ∀ c, (rule c).bookPath s) :
    (byCrane p rule).bookPath s := by
  unfold byCrane
  split
  · exact h _
  · trivial

/-- The requests whose owning rules change the book or judge the feed-demand line. -/
def bookRequests : List Request := [.chargeIn, .skim, .rebase, .openBook, .tuneKettle, .leave]

/-- Either mode of CLOSE JOB leaves the book (R139, R140). -/
theorem closeJobRule_bookPath (body : List Byte) (s : State) : (closeJobRule body s).bookPath s := by
  have wait : ∀ i, (closeJobWait i s).bookPath s := fun i => State.bookPath_of_kept (by simp)
  have now : ∀ i, (closeJobNow i s).bookPath s := fun i => State.bookPath_of_kept (State.announceAll_bookView _ _)
  unfold closeJobRule
  dsimp only
  repeat' split
  all_goals first | trivial | exact wait _ | exact now _

/-- Every other owning rule leaves the book and the feed-demand line. -/
theorem ownRule_bookPath_of_kept (r : Request) (p : Port) (body : List Byte) (s : State) (h : r ∉ bookRequests) :
    (ownRule r p body s).bookPath s := by
  cases r with
  | status | readBook | readLanes => trivial
  | reserve | release | clear | dropped =>
    refine byCrane_bookPath fun c => ?_
    simp only [reserveRule, releaseRule, clearRule, droppedRule]
    repeat' split
    all_goals first | trivial | exact Reply.bookPath_done_of_kept (by simp)
  | join | lower | submerged | withdraw | turned | readHook | zeroHook =>
    refine byCrane_bookPath fun c => ?_
    simp only [joinRule, lowerRule, submergedRule, withdrawRule, turnedRule, readHookRule, zeroHookRule]
    repeat' split
    all_goals first | trivial | exact Reply.bookPath_done_of_kept rfl
  | takeNotice | charge | chargeAbort | setupKettle | setClass | readClass | setHook | openJob | readJob | removeJob
  | takeRecords | hold | clearFoul | reconcileNow =>
    simp only [ownRule, takeNoticeRule, chargeRule, chargeAbortRule, setupKettleRule, setClassRule, readClassRule,
      setHookRule, openJobRule, readJobRule, removeJobRule, takeRecordsRule, holdRule, clearFoulRule, reconcileNowRule]
    repeat' split
    all_goals first | trivial | exact Reply.bookPath_done_of_kept rfl
  | resume =>
    simp only [ownRule, resumeRule]
    split
    · trivial
    · split
      · exact s.bookPath_refl
      · trivial
    · split
      · exact State.bookPath_of_kept (State.notifyAll_bookView _ _)
      · trivial
  | closeJob => exact closeJobRule_bookPath body s
  | chargeIn | skim | rebase | openBook | tuneKettle | leave => simp [bookRequests] at h

/-- Every owning rule changes the book by its own changes alone. -/
theorem ownRule_bookPath (r : Request) (p : Port) (body : List Byte) (s : State) : (ownRule r p body s).bookPath s := by
  cases r with
  | chargeIn => exact chargeInRule_bookPath s
  | skim => exact skimRule_bookPath body s
  | rebase => exact rebaseRule_bookPath s
  | openBook => exact openBookRule_bookPath body s
  | tuneKettle => exact tuneKettleRule_bookPath body s
  | leave => exact byCrane_bookPath fun c => leaveRule_bookPath c s
  | _ => exact ownRule_bookPath_of_kept _ p body s (by simp [bookRequests])

/-! ### What a running part's commands do to the book and to the lines -/

/-- From one state of a running part to another: the book changes by its own changes alone, and lines at their levels (R169, R170,
R211) come to stand at their levels. -/
structure State.stepsOn (s t : State) : Prop where
  book : s.bookPath t
  levels : s.lines = s.lineLevels → t.lines = t.lineLevels

theorem State.stepsOn_refl (s : State) : s.stepsOn s := ⟨s.bookPath_refl, id⟩

theorem State.stepsOn.trans {s t u : State} (h : s.stepsOn t) (h' : t.stepsOn u) : s.stepsOn u :=
  ⟨h.book.trans h'.book, fun lines => h'.levels (h.levels lines)⟩

/-- The end of an event's step brings the lines to their levels. -/
theorem State.endEvent_stepsOn {s new : State} (path : s.bookPath new) (old : State) (d : Deadline) :
    s.stepsOn (old.endEvent new d) :=
  ⟨path.trans (State.bookPath_of_kept (by simp)), fun _ => rfl⟩

/-- The end of an accepted request's step brings the lines to their levels. -/
theorem State.endRequest_stepsOn {s new : State} (path : s.bookPath new) (old : State) : s.stepsOn (old.endRequest new) :=
  ⟨path.trans (State.bookPath_of_kept (by simp)), fun _ => rfl⟩

theorem State.setSlot_stepsOn (s : State) (p : Port) (slot : AnswerSlot) : s.stepsOn (s.setSlot p slot) :=
  ⟨State.bookPath_of_kept (by simp), id⟩

theorem State.stepsOn.endTransfer {s t : State} (h : s.stepsOn t) (p : Port) : s.stepsOn (t.endTransfer p) :=
  h.trans ⟨State.bookPath_of_kept (by simp), id⟩

theorem State.writeDue_stepsOn (s : State) (d : Deadline) : s.stepsOn (s.writeDue d) :=
  ⟨State.bookPath_of_kept (by simp), id⟩

theorem State.serve_stepsOn (s : State) (p : Port) (r : Request) (body : List Byte) : s.stepsOn (s.serve p r body) := by
  have own := ownRule_bookPath r p body s
  rcases s.serve_cases p r body with ⟨st, -, h⟩ | ⟨ans, -, h⟩ | ⟨ans, new, ho, h⟩
  · rw [h]; exact s.setSlot_stepsOn p _
  · rw [h]; exact s.setSlot_stepsOn p _
  · rw [ho] at own
    rw [h]; exact (State.endRequest_stepsOn own s).trans (State.setSlot_stepsOn _ p _)

theorem State.settle_stepsOn (s : State) (p : Port) : s.stepsOn (s.settle p) := by
  unfold State.settle
  split
  · exact s.serve_stepsOn p _ _
  · exact s.stepsOn_refl

theorem State.judge_stepsOn (s : State) (p : Port) (rx : ReceiveBuffer) (check : Byte) :
    s.stepsOn (s.judge p rx check) := by
  rcases State.judge_cases (s := s) (p := p) (rx := rx) (check := check) with ⟨st, h⟩ | ⟨r, -, -, -, h⟩
  · rw [h]; exact s.setSlot_stepsOn p _
  · rw [h]; exact s.serve_stepsOn p r _

theorem State.writeTransfer_stepsOn (s : State) (p : Port) (addr : LinkAddress) (code : Byte) (body : List Byte)
    (check : Byte) : s.stepsOn (s.writeTransfer p addr code body check) := by
  unfold State.writeTransfer
  split
  · exact ((s.settle_stepsOn p).trans (State.judge_stepsOn _ p _ check)).endTransfer p
  · exact s.stepsOn_refl

theorem State.sendAnswer_stepsOn (s : State) (p : Port) (clocked : Nat) : s.stepsOn (s.sendAnswer p clocked) :=
  ⟨State.bookPath_of_kept rfl, id⟩

theorem State.readFrom_stepsOn (s : State) (p : Port) (clocked : Nat) : s.stepsOn (s.readFrom p clocked) :=
  ((s.settle_stepsOn p).trans (State.sendAnswer_stepsOn _ p clocked)).endTransfer p

theorem State.dropWrite_stepsOn (s : State) (p : Port) : s.stepsOn (s.dropWrite p) := (s.settle_stepsOn p).endTransfer p

theorem State.runOut_stepsOn (s : State) (c : Context) : s.stepsOn (s.runOut c) := by
  unfold State.runOut
  split
  · exact (State.endEvent_stepsOn (State.bookPath_of_kept (by simp)) s .lapse).trans (State.writeDue_stepsOn _ _)
  · exact s.stepsOn_refl

theorem State.runOuts_stepsOn (s : State) : s.stepsOn s.runOuts :=
  ((s.runOut_stepsOn _).trans (State.runOut_stepsOn _ _)).trans (State.runOut_stepsOn _ _)

theorem State.loadScan_stepsOn (s : State) (rA rB : Reading) (first : Crane) : s.stepsOn (s.loadScan rA rB first) :=
  ⟨s.loadScan_bookPath rA rB first, fun _ => rfl⟩

theorem State.tickTimer_bookPath (s : State) (c : Crane) : s.bookPath (s.tickTimer c) := by
  unfold State.tickTimer
  split
  · exact s.takeTimer_bookPath c _ _
  · exact s.bookPath_refl

theorem State.meetCompare_bookPath (s : State) (c : Crane) : s.bookPath (s.meetCompare c) := by
  unfold State.meetCompare
  dsimp only
  split
  · exact s.takeTimer_bookPath c _ _
  · exact s.bookPath_refl

theorem State.saturateTimer_bookPath (s : State) (c : Crane) : s.bookPath (s.saturateTimer c) := by
  unfold State.saturateTimer
  dsimp only
  split
  · exact s.takeTimer_bookPath c _ _
  · exact s.bookPath_refl

theorem State.whileRunning_of_running {s : State} (run : s.phase = .running) (act : State → State) :
    s.whileRunning act = act s := if_pos run

/-- A part that a flush has stopped, its book as a running part's step left it, its lines held (R193). -/
structure State.stopsAt (s t : State) : Prop where
  phase : t.phase = .flushed
  lines : t.lines = Lines.down
  book : ∃ u : State, s.bookPath u ∧ t.book = u.book ∧ t.recon = u.recon

theorem State.flushPart_stopsAt {s : State} (run : s.phase = .running) : s.stopsAt s.flushPart := by
  have settled : s.stepsOn s.settleAll.1 :=
    (((s.settle_stepsOn .craneA).trans (State.settle_stepsOn _ .craneB)).trans (State.settle_stepsOn _ .feed)).trans
      (State.settle_stepsOn _ .office)
  unfold State.flushPart
  rw [if_pos run]
  exact ⟨rfl, rfl, _, settled.book, rfl, rfl⟩

/-- The input that falls has no part in what a flush makes of the book. -/
theorem State.flushPart_stopsAt_of_inputs {s : State} (run : s.phase = .running) (inputs : Inputs) :
    s.stopsAt { s with inputs := inputs }.flushPart :=
  have stops := State.flushPart_stopsAt (s := { s with inputs := inputs }) run
  ⟨stops.phase, stops.lines, stops.book⟩

/-- A collapse leaves what the flush of the part left, but for the store and the supply (R200). -/
theorem State.collapse_frame (s : State) (tears : List StepTear) :
    s.collapse tears =
      { s with
        inputs := { s.inputs with supplyLost := true }, store := (s.collapse tears).store
        flush := (s.collapse tears).flush } := by
  unfold State.collapse
  split <;> rfl

/-- Whatever command a running part takes, it steps on or is stopped by a flush. -/
theorem exec_of_running {i : Instr} {s t : State} (run : s.phase = .running) (h : exec i s = .next t) :
    s.stepsOn t ∨ s.stopsAt t := by
  cases i <;> cases h
  case unknownRequest => exact .inl (s.writeTransfer_stepsOn _ _ _ _ _)
  case readTransfer =>
    left
    split
    · exact s.readFrom_stepsOn _ _
    · exact s.stepsOn_refl
  case shortWrite =>
    left
    split
    · exact s.dropWrite_stepsOn _
    · exact s.stepsOn_refl
  case linkLowTimeout p during =>
    rw [if_pos run]
    cases during with
    | idle => exact .inl s.stepsOn_refl
    | writing bytes => exact .inl (s.dropWrite_stepsOn p)
    | reading clocked => exact .inl (s.readFrom_stepsOn p clocked)
  case lapseExpiry c =>
    rw [State.whileRunning_of_running run]
    exact .inl ((s.writeDue_stepsOn .lapse).trans (State.endEvent_stepsOn (State.bookPath_of_kept (by simp)) _ _))
  case loadScan rA rB first =>
    rw [State.whileRunning_of_running run]
    exact .inl (((s.writeDue_stepsOn .loadScan).trans (State.runOuts_stepsOn _)).trans (State.loadScan_stepsOn _ rA rB first))
  case immersionLimitExpiry c =>
    rw [State.whileRunning_of_running run]
    exact .inl (State.endEvent_stepsOn (State.bookPath_of_kept (s.expireWithin_bookView c 1)) _ _)
  case drainTimerTick c =>
    rw [State.whileRunning_of_running run]
    exact .inl (State.endEvent_stepsOn (s.tickTimer_bookPath c) _ _)
  case timedCompareMet c =>
    rw [State.whileRunning_of_running run]
    exact .inl (State.endEvent_stepsOn (s.meetCompare_bookPath c) _ _)
  case drainSaturation c =>
    rw [State.whileRunning_of_running run]
    exact .inl (State.endEvent_stepsOn (s.saturateTimer_bookPath c) _ _)
  case blankingEnd c =>
    rw [State.whileRunning_of_running run]
    exact .inl (State.endEvent_stepsOn (State.bookPath_of_kept (s.reachAfter_bookView c)) _ _)
  case bathScan rl rt us =>
    rw [State.whileRunning_of_running run]
    refine .inl (State.endEvent_stepsOn (State.bookPath.trans ?_ (State.scanBath_bookPath _ rl rt)) _ _)
    exact State.bookPath_of_kept rfl
  case stopFall | stopRise =>
    refine .inl ?_
    rw [State.whileRunning_of_running (by exact run)]
    refine State.endEvent_stepsOn (State.bookPath_of_kept ?_) _ _
    simp only [State.fallStop_bookView, State.riseStop_bookView]
    rfl
  case supplyFailFall | resetAssert => exact .inr (State.flushPart_stopsAt_of_inputs run _)
  case resetRelease | supplyFailRise =>
    refine .inl ?_
    unfold State.tryRestart State.mayRestart
    dsimp only
    rw [if_neg (by simp [run])]
    exact ⟨State.bookPath_of_kept rfl, id⟩
  case powerOn =>
    rw [if_pos run]
    exact .inl s.stepsOn_refl
  case supplyCollapse tears =>
    obtain ⟨phase, lines, u, path, book, recon⟩ := State.flushPart_stopsAt run
    rw [State.collapse_frame]
    exact .inr ⟨phase, lines, u, path, book, recon⟩
  all_goals exact .inl (s.writeTransfer_stepsOn _ _ _ _ _)

/-- Settles O13: a running part's command changes the book by its own changes alone, and each of them keeps the law. -/
theorem the_law_of_the_book_is_kept : Obligations.The_law_of_the_book_is_kept := by
  intro i s t run gain law h
  have along : ∀ {u : State}, s.bookPath u → u.bookLawful := fun path =>
    (State.bookLawful_iff _).mpr
      (path.keeps (P := fun m => m.lawful ∧ m.settings.trimGain ≤ 16) (fun _ _ move => move.keeps_lawful)
        ⟨(State.bookLawful_iff s).mp law, gain⟩).1
  rcases exec_of_running run h with steps | ⟨-, -, u, path, book, recon⟩
  · exact along steps.book
  · have kept := along path
    rwa [State.bookLawful, ← book, ← recon] at kept

/-! ### The lines of a stopped part, and of one that has restarted (R193, R194, R198) -/

/-- The lines of a running part follow their rules when each stands at its level, the feed-demand line at its own. -/
theorem State.linesLawful_of_running {s : State} (run : s.phase = .running) (levels : s.lines = s.lineLevels)
    (feed : s.bookView.feed = s.bookView.level) : s.linesLawful := by
  unfold State.linesLawful
  rw [run]
  exact ⟨levels, feed⟩

theorem State.linesLawful_of_flushed {s : State} (stopped : s.phase = .flushed) (held : s.lines = Lines.down) :
    s.linesLawful := by
  unfold State.linesLawful
  rw [stopped]
  exact held

@[simp] theorem State.noticeDefaulted_bookView (s : State) (c : Crane) : (s.noticeDefaulted c).bookView = s.bookView := by
  unfold State.noticeDefaulted
  split <;> rfl

@[simp] theorem State.noticeInvalid_bookView (s : State) : s.noticeInvalid.bookView = s.bookView := by
  unfold State.noticeInvalid
  split <;> rfl

@[simp] theorem State.noticeDamage_bookView (s : State) (count : Nat) : (s.noticeDamage count).bookView = s.bookView := by
  unfold State.noticeDamage
  split <;> rfl

/-- The end of a restart judges the feed-demand line (R198). -/
theorem State.released_bookView (s : State) (count : Nat) : (s.released count).bookView = s.bookView.judged := by
  unfold State.released
  dsimp only
  rw [State.judgeLines_bookView]
  split <;> simp

/-- A restart that runs to its end leaves every line at the level of its rule. -/
theorem State.restartWhole_linesLawful (s : State) : s.restartWhole.linesLawful := by
  have view := State.released_bookView (s.revived s.store.restore.ended s.store.restore.damaged)
    s.store.restore.damaged.length
  refine State.linesLawful_of_running ?_ rfl ?_
  · exact congrArg BookView.phase view
  · change (State.released _ _).bookView.feed = (State.released _ _).bookView.level
    rw [view]
    rfl

theorem State.whileRunning_of_flushed {s : State} (stopped : s.phase = .flushed) (act : State → State) :
    s.whileRunning act = s := if_neg (by simp [stopped])

/-- A stopped part's restart runs to its end, or leaves the part stopped (R194). -/
theorem State.tryRestart_cases {s : State} (upsets : List Upset) (cut : Option RestartCut) :
    ((s.tryRestart upsets cut).phase = s.phase ∧ (s.tryRestart upsets cut).lines = s.lines) ∨
      ∃ u : State, s.tryRestart upsets cut = u.restartWhole := by
  unfold State.tryRestart State.restart
  dsimp only
  split
  · cases cut with
    | none => exact .inr ⟨_, rfl⟩
    | some k => exact .inl ⟨rfl, rfl⟩
  · exact .inl ⟨rfl, rfl⟩

/-- Whatever command a stopped part takes, it stays stopped with its lines held, or restarts (R193, R194). -/
theorem exec_of_flushed {i : Instr} {s t : State} (stopped : s.phase = .flushed) (h : exec i s = .next t) :
    (t.phase = s.phase ∧ t.lines = s.lines) ∨ ∃ u : State, t = u.restartWhole := by
  have deaf : ∀ addr, s.answers addr = false := fun addr => by simp [State.answers, stopped]
  have silent : ∀ p addr code body check, s.writeTransfer p addr code body check = s := fun p addr code body check =>
    if_neg (by simp [deaf])
  have idle : ∀ act, s.whileRunning act = s := State.whileRunning_of_flushed stopped
  cases i <;> cases h
  case unknownRequest => rw [silent]; exact .inl ⟨rfl, rfl⟩
  case readTransfer | shortWrite => rw [if_neg (by simp [deaf])]; exact .inl ⟨rfl, rfl⟩
  case linkLowTimeout => rw [if_neg (by simp [stopped])]; exact .inl ⟨rfl, rfl⟩
  case lapseExpiry | loadScan | immersionLimitExpiry | drainTimerTick | timedCompareMet | drainSaturation | blankingEnd
    | bathScan => rw [idle]; exact .inl ⟨rfl, rfl⟩
  case stopFall | stopRise => rw [State.whileRunning_of_flushed (by exact stopped)]; exact .inl ⟨rfl, rfl⟩
  case supplyFailFall | resetAssert =>
    unfold State.flushPart
    rw [if_neg (by simp [stopped])]
    exact .inl ⟨rfl, rfl⟩
  case resetRelease upsets cut | supplyFailRise upsets cut => exact State.tryRestart_cases upsets cut
  case powerOn upsets cut =>
    rw [if_neg (by simp [stopped])]
    exact State.tryRestart_cases upsets cut
  case supplyCollapse tears =>
    unfold State.flushPart
    rw [if_neg (by simp [stopped]), State.collapse_frame]
    exact .inl ⟨rfl, rfl⟩
  all_goals exact .inl ⟨congrArg State.phase (silent _ _ _ _ _), congrArg State.lines (silent _ _ _ _ _)⟩

/-- Whatever command a part takes, it leaves the lines as their rules say. -/
theorem exec_linesLawful {i : Instr} {s t : State} (lawful : s.linesLawful) (h : exec i s = .next t) : t.linesLawful := by
  unfold State.linesLawful at lawful
  cases phase : s.phase with
  | running =>
    rw [phase] at lawful
    obtain ⟨levels, feed⟩ := lawful
    rcases exec_of_running phase h with ⟨path, kept⟩ | stops
    · exact State.linesLawful_of_running (path.phase.trans phase) (kept levels)
        (path.keeps (P := fun m => m.feed = m.level) (fun _ _ move => move.keeps_level) feed)
    · exact State.linesLawful_of_flushed stops.phase stops.lines
  | flushed =>
    rw [phase] at lawful
    rcases exec_of_flushed phase h with ⟨stopped, held⟩ | ⟨u, rfl⟩
    · exact State.linesLawful_of_flushed (stopped.trans phase) (held.trans lawful)
    · exact u.restartWhole_linesLawful

/-- Settles O9: a running part's commands end with the lines judged, a flush holds them, and a restart ends with them judged. -/
theorem lines_follow_their_rules : Obligations.Lines_follow_their_rules := by
  intro s t lawful h
  unfold step at h
  split at h
  · cases h
    exact lawful
  · rename_i rest _
    exact exec_linesLawful (s := { s with pending := rest }) lawful h

end Sys2Proof.Machine

namespace Sys2Proof.Machine

/-! ### Flows and clamps (R108, R110, R111) -/

/-- Adjusted takes a change, held at 2^47 - 1 of either sign (R108). -/
theorem Book.adjust_eq (b : Book) (a : Int) :
    b.adjust a =
      { b with
        adjusted := max (-140737488355327) (min 140737488355327 (b.adjusted + a))
        saturated := b.saturated ||
          decide (b.adjusted + a < -140737488355327 ∨ 140737488355327 < b.adjusted + a) } := by
  have held : clampInt (-(Config.maxTotal : Int)) Config.maxTotal (b.adjusted + a) =
      max (-140737488355327) (min 140737488355327 (b.adjusted + a)) := by
    simp only [clampInt, Config.maxTotal]
    split_ifs <;> omega
  unfold Book.adjust
  rw [held, Bool.or_assoc, ← Bool.decide_or]
  rfl

/-- What a debit leaves: M without it, the shortfall taken from adjusted (R110). -/
theorem Book.debit_eq (b : Book) (d : Nat) :
    b.debit d =
      { b with
        mass := b.mass - d
        adjusted :=
          if b.mass < d then max (-140737488355327) (min 140737488355327 (b.adjusted - ((d : Int) - b.mass))) else b.adjusted
        saturated := b.saturated ||
          decide (b.mass < d ∧ (b.adjusted - ((d : Int) - b.mass) < -140737488355327 ∨
            140737488355327 < b.adjusted - ((d : Int) - b.mass))) } := by
  unfold Book.debit
  split
  · rename_i short
    rw [Book.adjust_eq]
    simp [short, Nat.sub_eq_zero_of_le short.le, sub_eq_add_neg]
  · rename_i enough
    simp [enough]

/-- What a credit leaves: M with it, what passes the greatest mass added to adjusted (R111). -/
theorem Book.credit_eq (b : Book) (m : Nat) :
    b.credit m =
      { b with
        mass := min (b.mass + m) 4294967295
        adjusted :=
          if 0 < (b.mass : Int) + m - 4294967295 then
            max (-140737488355327) (min 140737488355327 (b.adjusted + ((b.mass : Int) + m - 4294967295)))
          else b.adjusted
        saturated := b.saturated ||
          decide (0 < (b.mass : Int) + m - 4294967295 ∧
            (b.adjusted + ((b.mass : Int) + m - 4294967295) < -140737488355327 ∨
              140737488355327 < b.adjusted + ((b.mass : Int) + m - 4294967295))) } := by
  have limit : Config.maxMass = 4294967295 := rfl
  unfold Book.credit
  split
  · rename_i past
    have excess : 0 < (b.mass : Int) + m - 4294967295 := by omega
    have full : min (b.mass + m) 4294967295 = 4294967295 := by omega
    rw [Book.adjust_eq, full, limit]
    simp only [excess, true_and, if_true, Nat.cast_add, Nat.cast_ofNat]
  · rename_i fits
    have within : ¬0 < (b.mass : Int) + m - 4294967295 := by omega
    have whole : min (b.mass + m) 4294967295 = b.mass + m := by omega
    simp only [within, whole, false_and, if_false, decide_false, Bool.or_false]

/-- Settles O50: each flow books its total, and then is the debit or the credit of a mass. -/
theorem flows_book_their_totals_and_clamp_M : Obligations.Flows_book_their_totals_and_clamp_M := by
  intro b d short excess bound held past kept broken debited
  have moved : ∀ (c : Book) (total : Nat), c.mass = b.mass → c.adjusted = b.adjusted →
      c.saturated = (b.saturated || decide (140737488355327 < total + d)) → debited (c.debit d) total := by
    intro c total mass adjusted saturated
    rw [Book.debit_eq, mass, adjusted, saturated]
    exact ⟨rfl, rfl, by simp only [Bool.or_eq_true, decide_eq_true_eq, or_assoc]; rfl⟩
  refine ⟨moved _ b.picked rfl rfl rfl, moved _ b.dross rfl rfl rfl, moved _ b.ash rfl rfl rfl, Book.debit_frame _ d,
    Book.debit_frame _ d, Book.debit_frame _ d, ?_, rfl⟩
  exact Book.credit_eq _ d

/-! ### Book requests (R115, R130 to R132) -/

theorem rebaseRule_of_gauge {s : State} {g : Nat} (known : s.recon.gauge = some g) :
    rebaseRule s = .done (leSigned 8 ((s.book.mass : Int) - g)) (s.withBook (s.book.rebased g)) := by
  unfold rebaseRule
  rw [known, ← State.setBook_eq_withBook]
  rfl

/-- Settles O51: the four rules branch by branch. -/
theorem book_requests_skim_rebase_open_and_ask_to_reconcile :
    Obligations.Book_requests_skim_rebase_open_and_ask_to_reconcile := by
  intro s
  constructor
  · intro body takes len m za
    have lengthOk : Request.skim.lengthOk body.length = true := by simp [len, Request.lengthOk]
    constructor
    · intro zero
      exact exec_refused rfl takes rfl lengthOk (if_pos zero)
    · intro mass
      refine exec_done rfl takes rfl lengthOk ((if_neg mass).trans ?_)
      rw [State.setBook_eq_withBook]
      rfl
  · intro takes
    refine ⟨?_, ?_, ?_, ?_, ?_⟩
    · intro g known d bound moved
      refine exec_done rfl takes rfl rfl ((rebaseRule_of_gauge known).trans ?_)
      rw [Book.rebased, Book.adjust_eq]
    · intro unknown
      refine exec_refused rfl takes rfl rfl ?_
      simp only [ownRule, rebaseRule, unknown]
    · intro body len
      refine exec_done rfl takes rfl (by simp [len, Request.lengthOk]) ?_
      simp only [ownRule, openBookRule, State.setBook_eq_withBook]
      rfl
    · intro quiet still
      exact exec_done rfl takes rfl rfl (if_pos (by simp [quiet, still]))
    · intro unquiet
      refine exec_refused rfl takes rfl rfl (if_neg ?_)
      rcases unquiet with h | h <;> simp [h]

/-! ### TUNE KETTLE (R121, R172, R173) -/

/-- The feed-demand line judged, the book as it is (R134). -/
theorem State.judgeFeed_eq_withBook (s : State) : s.judgeFeed = s.withBook s.book := s.setBook_eq_withBook s.book

/-- The count that the answer to a TUNE KETTLE gives (R173). -/
theorem length_changedSettings (old new : Settings) :
    (changedSettings old new).length = settingNumbers.countP fun n => new.get n != old.get n := by
  simp only [changedSettings, List.countP_eq_length_filter, bne, Bool.beq_comm]

/-- A list passes the tests of R172 when each pair is in range, no number stands twice and the window is not inverted. -/
theorem tuneOk_iff {ps : List TunePair} {t : Settings} :
    tuneOk ps t = true ↔
      (∀ p ∈ ps, 1 ≤ p.number ∧ p.number ≤ 21 ∧ (settingRange p.number).1 ≤ p.value ∧
          p.value ≤ (settingRange p.number).2) ∧
        (ps.map TunePair.number).Nodup ∧ (t.tuned ps).tempLow ≤ (t.tuned ps).tempHigh := by
  simp only [tuneOk, TunePair.ok, Bool.and_eq_true, List.all_eq_true, decide_eq_true_eq, and_assoc]
  rfl

/-- A list in which no number stands twice gives each setting that it names its value. -/
theorem Settings.get_tuned_of_mem {t : Settings} {ps : List TunePair} (ok : ∀ p ∈ ps, p.ok = true)
    (once : (ps.map TunePair.number).Nodup) {p : TunePair} (mem : p ∈ ps) : (t.tuned ps).get p.number = p.value := by
  obtain ⟨q, memq, number, value⟩ := Settings.get_tuned_of_named (t := t) ok ⟨p, mem, rfl⟩
  rw [value, List.inj_on_of_nodup_map once memq mem number]

/-- What a change of calibration leaves (R121). -/
theorem State.recalibrate_eq (s : State) (old new : Settings) :
    s.recalibrate old new =
      { s with
        bath :=
          { s.bath with
            levels := if new.levelZero = old.levelZero ∧ new.levelSpan = old.levelSpan then s.bath.levels else []
            stored := if new.tempZero = old.tempZero ∧ new.tempSpan = old.tempSpan then s.bath.stored else none
            age := if new.tempZero = old.tempZero ∧ new.tempSpan = old.tempSpan then s.bath.age else 0 }
        recon :=
          { s.recon with
            quietLevels :=
              if new.levelZero = old.levelZero ∧ new.levelSpan = old.levelSpan then s.recon.quietLevels else 0 } } := by
  have level : levelRecalibrated old new = true ↔ ¬(new.levelZero = old.levelZero ∧ new.levelSpan = old.levelSpan) := by
    simp only [levelRecalibrated, Bool.or_eq_true, bne_iff_ne, not_and_or, ne_comm, ne_eq]
  have temp : tempRecalibrated old new = true ↔ ¬(new.tempZero = old.tempZero ∧ new.tempSpan = old.tempSpan) := by
    simp only [tempRecalibrated, Bool.or_eq_true, bne_iff_ne, not_and_or, ne_comm, ne_eq]
  unfold State.recalibrate
  simp only [level, temp, ite_not]
  split <;> split <;> rfl

/-- What a TUNE KETTLE leaves (R173): the feed-demand line is judged only where its mark moves. -/
theorem State.tune_eq (s : State) (new : Settings) :
    let sameLevel := new.levelZero = s.settings.levelZero ∧ new.levelSpan = s.settings.levelSpan
    let sameTemp := new.tempZero = s.settings.tempZero ∧ new.tempSpan = s.settings.tempSpan
    let high :=
      if new.feedLow = s.settings.feedLow then s.lines.feed
      else decide (s.book.state ≠ .invalid) && decide (s.book.mass < new.feedLow)
    s.tune new =
      { s with
        settings := new
        bath :=
          { s.bath with
            levels := if sameLevel then s.bath.levels else []
            stored := if sameTemp then s.bath.stored else none
            age := if sameTemp then s.bath.age else 0 }
        recon := { s.recon with quietLevels := if sameLevel then s.recon.quietLevels else 0 }
        lines := { s.lines with feed := high }
        notices :=
          if high = true ∧ s.lines.feed = false then s.notices.set .feed (s.notices.feed.push (.feedLow s.book.mass))
          else s.notices } := by
  intro sameLevel sameTemp high
  unfold State.tune
  rw [State.recalibrate_eq]
  dsimp only
  split
  · rename_i same
    have kept : high = s.lines.feed := if_pos same.symm
    simp [kept, sameLevel, sameTemp]
  · rename_i moved
    have judged : high = (decide (s.book.state ≠ .invalid) && decide (s.book.mass < new.feedLow)) :=
      if_neg fun same => moved same.symm
    rw [State.judgeFeed_eq_withBook, judged]
    simp only [State.withBook, Bool.and_eq_true, Bool.not_eq_true', PerPort.get, sameLevel, sameTemp]

/-- Settles O56: a list that fails a test of R172 is refused, and one that passes them leaves what R173 states. -/
theorem tune_kettle_sets_its_list_or_nothing : Obligations.TUNE_KETTLE_sets_its_list_or_nothing := by
  intro body s takes len ps new fits sameLevel sameTemp high
  constructor
  · intro unfit
    exact exec_refused rfl takes rfl len (if_neg fun ok => unfit (tuneOk_iff.mp ok))
  · intro fit
    have ok := tuneOk_iff.mpr fit
    have inRange : ∀ p ∈ ps, p.ok = true := by
      simp only [tuneOk, Bool.and_eq_true, List.all_eq_true] at ok
      exact ok.1.1
    refine ⟨fun p mem => Settings.get_tuned_of_mem inRange fit.2.1 mem, fun n => Settings.get_tuned_of_not_named, ?_⟩
    refine exec_done rfl takes rfl len ((if_pos ok).trans ?_)
    rw [State.tune_eq, length_changedSettings]
    rfl

end Sys2Proof.Machine

namespace Sys2Proof.Machine

/-! ### Items of an image that are the same in another (R190) -/

theorem sameItem_symm {a b : StoreImage} {k : StoreKey} (h : sameItem a b k = true) : sameItem b a k = true := by
  cases k <;> simp_all [sameItem]

theorem sameItem_trans {a b c : StoreImage} {k : StoreKey} (h : sameItem a b k = true) (h' : sameItem b c k = true) :
    sameItem a c k = true := by
  cases k <;> simp_all [sameItem]

/-- Where a step leaves an item, the working copies before it closed its jobs leave it too (R147, R156). -/
theorem sameItem_unclosed {old new : StoreImage} {k : StoreKey} (h : sameItem old new k = true) :
    sameItem (new.unclosed old) new k = true := by
  cases k with
  | job n =>
    have same : old.jobs[n]? = new.jobs[n]? := by simpa [sameItem] using h
    have kept : (new.unclosed old).jobs[n]? = new.jobs[n]? := by
      simp only [StoreImage.unclosed, List.getElem?_map, List.getElem?_zipIdx]
      cases slot : new.jobs[n]? with
      | none => rfl
      | some j =>
        simp only [Option.map_some, zero_add, same, slot, Option.getD_some]
        split <;> rfl
    simp [sameItem, kept]
  | _ => simp [sameItem, StoreImage.unclosed]

/-- The items that a step writes of those given: what it changed, and the list of records with every record it queued or counted. -/
theorem differing_eq (keys : List StoreKey) (a b : StoreImage) : differing keys a b = keys.filter (writesItem a b) := by
  unfold differing
  split
  · rename_i same
    subst same
    exact (List.filter_eq_nil_iff.mpr fun k _ => by simp [writesItem, sameItem_refl]).symm
  · rfl

theorem not_records_of_mem_earlyKeys {k : StoreKey} (early : k ∈ earlyKeys) : k ≠ .records := by
  rintro rfl
  simp [earlyKeys] at early

theorem differing_earlyKeys (a b : StoreImage) : differing earlyKeys a b = earlyKeys.filter fun k => !sameItem a b k := by
  rw [differing_eq]
  exact List.filter_congr fun k early => writesItem_of_ne (not_records_of_mem_earlyKeys early)

/-- A step that leaves every item writes nothing. -/
theorem stepWrites_of_same {old new : StoreImage} (same : ∀ k ∈ storeKeys, sameItem old new k = true) :
    stepWrites old new = [] := by
  have early : ∀ k ∈ earlyKeys, sameItem old new k = true := fun k mem => same k (List.mem_append_left _ mem)
  have between : differing earlyKeys old (new.unclosed old) = [] := by
    rw [differing_earlyKeys, List.filter_eq_nil_iff]
    intro k mem
    simp [sameItem_trans (early k mem) (sameItem_symm (sameItem_unclosed (early k mem)))]
  have closing : differing earlyKeys (new.unclosed old) new = [] := by
    rw [differing_earlyKeys, List.filter_eq_nil_iff]
    intro k mem
    simp [sameItem_unclosed (early k mem)]
  have late : differing lateKeys old new = [] := by
    rw [differing_eq, List.filter_eq_nil_iff]
    intro k mem
    have lost := same .lost (by simp [storeKeys, lateKeys])
    simp only [sameItem, Bool.and_eq_true, beq_iff_eq] at lost
    simp [writesItem, same k (List.mem_append_right _ mem), lost.2]
  simp [stepWrites, between, closing, late]

/-- A step that changes an item writes something. -/
theorem stepWrites_ne_nil {old new : StoreImage} {k : StoreKey} (mem : k ∈ storeKeys) (changed : sameItem old new k = false) :
    stepWrites old new ≠ [] := by
  intro none
  have empty : ∀ w ∈ ([{ image := new.unclosed old, keys := differing earlyKeys old (new.unclosed old) },
      { image := new, keys := differing earlyKeys (new.unclosed old) new ++ differing lateKeys old new }] : List StepWrites),
      w.keys = [] := fun w listed => by
    simpa using List.filter_eq_nil_iff.mp none w listed
  simp only [List.forall_mem_cons, List.append_eq_nil_iff] at empty
  obtain ⟨between, ⟨closing, late⟩, -⟩ := empty
  rw [differing_earlyKeys, List.filter_eq_nil_iff] at between closing
  rw [differing_eq, List.filter_eq_nil_iff] at late
  rcases List.mem_append.mp mem with early | last
  · have first := between k early
    have second := closing k early
    simp only [Bool.not_eq_true', Bool.not_eq_false] at first second
    simp [sameItem_trans first second] at changed
  · simpa [writesItem, changed] using late k last

/-! ### What the end of a step leaves (R122, R190) -/

/-- The quiet state after a step (R122, R123, R130, log 27). -/
theorem State.judgeStill_recon (old new : State) :
    (old.judgeStill new).recon =
      if old.still = true ∧ new.still = false then
        { new.recon with quiet := none, quietLevels := 0, judgedQuiet := false, pending := false }
      else if old.still = false ∧ new.still = true then { new.recon with quiet := some 0 }
      else new.recon := by
  unfold State.judgeStill
  cases old.still <;> cases new.still <;> rfl

theorem State.judgeStill_image (old new : State) : (old.judgeStill new).image = new.image := by simp [State.image]

theorem State.endEvent_image (old new : State) (d : Deadline) : (old.endEvent new d).image = new.image := by
  rw [State.endEvent_frame]
  rfl

/-- The step due that an event from `old` to `new` makes of its writes, if it has any (R190). -/
def madeDue (old new : StoreImage) (d : Deadline) : List DueStep :=
  if stepWrites old new = [] then [] else [{ due := d, writes := stepWrites old new }]

theorem State.endEvent_unsaved (old new : State) (d : Deadline) :
    (old.endEvent new d).unsaved = new.unsaved ++ madeDue old.image new.image d := by
  simp only [State.endEvent, State.writeLater, State.judgeLines_unsaved, State.judgeStill_image, State.judgeStill_unsaved,
    List.isEmpty_iff, madeDue]
  split <;> simp

/-- Settles O23: the writes of a step that changes nothing are none, and those of any other are the two groups of its items. -/
theorem an_event_leaves_its_writes_due_and_its_lines_follow :
    Obligations.An_event_leaves_its_writes_due_and_its_lines_follow := by
  intro s new d midway
  refine ⟨s.endEvent new d, madeDue s.image new.image d, rfl, ?_, fun same => ?_, fun changed => ?_, rfl,
    congrArg BookView.feed (s.endEvent_bookView new d)⟩
  · conv_lhs => rw [State.endEvent_frame, State.judgeStill_recon, State.endEvent_unsaved]
  · rw [State.endEvent_image] at same
    exact if_pos (stepWrites_of_same same)
  · have records : (s.endEvent new d).records = new.records := by rw [State.endEvent_frame]
    rw [State.endEvent_image] at changed ⊢
    obtain ⟨k, mem, moved⟩ := changed
    rw [madeDue, if_neg (stepWrites_ne_nil mem moved), records]
    simp only [stepWrites, differing_earlyKeys, differing_eq lateKeys]
    rfl

end Sys2Proof.Machine

namespace Sys2Proof.Machine

/-! ### An accepted request over a store that has no place for what it changed (R190) -/

/-- A write of an item leaves as many classes in the store as it holds. -/
theorem StoreImage.putItem_classes_length (dst src : StoreImage) (k : StoreKey) :
    (dst.putItem src k).classes.length = dst.classes.length := by
  cases k with
  | classFields n | classEdition n =>
    dsimp only [StoreImage.putItem]
    split
    · exact List.length_set
    · rfl
  | job n =>
    dsimp only [StoreImage.putItem]
    split <;> rfl
  | _ => rfl

theorem Store.writeAll_classes_length (st : Store) (src : StoreImage) (keys : List StoreKey) :
    (st.writeAll src keys).image.classes.length = st.image.classes.length := by
  induction keys generalizing st with
  | nil => rfl
  | cons k ks ih => exact (ih (st.write src k)).trans (st.image.putItem_classes_length src k)

/-- With no write due, an accepted request leaves as many classes in the store as its owning rule did. -/
theorem State.accepted_store_classes_length (s : State) {new : State} (saved : new.unsaved = []) (p : Port) (ans : List Byte) :
    (s.accepted p ans new).store.image.classes.length = new.store.image.classes.length := by
  have nothingDue : (s.judgeStill new).writeDue .lapse = s.judgeStill new :=
    State.writeDue_nil .lapse (by simpa using saved)
  simp only [State.accepted, State.replied, State.endTransfer_store, State.setSlot_store, State.endRequest,
    State.judgeLines_store, State.writeThrough, nothingDue, State.writeNow, Store.writeAll_classes_length,
    State.judgeStill_store]

/-- The reset state with the edition of class 0 raised, over a store that holds no class. -/
def editedOverEmptyStore : State :=
  { State.reset with
    classes := State.reset.classes.set 0 (ClassEntry.factory 1)
    store := { image := { StoreImage.newPart with classes := [] }, flips := [] } }

/-- Refutes O22: its premise counts the classes of the old state's store, where the writes go to that of the state which the owning
rule left. From the reset state to one whose store holds no class, the edition of class 0 changes and is not in the store. -/
theorem not_an_accepted_request_is_durable_and_its_lines_follow :
    ¬Obligations.An_accepted_request_is_durable_and_its_lines_follow := by
  intro h
  obtain ⟨t, rfl, -, frame, durable, -⟩ := h State.reset editedOverEmptyStore .office [] rfl rfl
  have none : (State.reset.accepted .office [] editedOverEmptyStore).store.image.classes = [] :=
    List.eq_nil_of_length_eq_zero (State.accepted_store_classes_length _ rfl _ _)
  have classes : (State.reset.accepted .office [] editedOverEmptyStore).image.classes = editedOverEmptyStore.classes := by
    rw [frame]
    rfl
  have written := durable (.classEdition 0) (by simp [storeKeys, lateKeys, Config.classCount])
    (by simp only [sameItem, classes]; decide)
  simp only [sameItem, none, classes] at written
  exact absurd written (by decide)

end Sys2Proof.Machine

namespace Sys2Proof.Machine

/-! ### Readings and channels of a bath scan (R117, R118) -/

/-- A reading is valid: the overload mark clear and the value in its range (R117, R118). -/
abbrev readsIn (r : Reading) (zero : Int) (span bound : Nat) : Prop :=
  r.overload = false ∧ 0 ≤ (r.raw.toInt - zero) * span / 65536 ∧ (r.raw.toInt - zero) * span / 65536 ≤ bound

theorem validReading_eq (r : Reading) (zero : Int) (span bound : Nat) :
    validReading r zero span bound =
      if readsIn r zero span bound then some ((r.raw.toInt - zero) * span / 65536).toNat else none := by
  unfold validReading reading
  exact if_congr (by simp [and_assoc]) rfl rfl

@[simp] theorem isSome_validReading (r : Reading) (zero : Int) (span bound : Nat) :
    (validReading r zero span bound).isSome = decide (readsIn r zero span bound) := by
  rw [validReading_eq]
  split
  · exact (decide_eq_true ‹_›).symm
  · exact (decide_eq_false ‹_›).symm

/-- What a reading, valid or not, makes of a channel's runs and of its health (R118). -/
structure Channel.Counted (old new : Channel) (valid : Prop) : Prop where
  ofValid : valid → new.validRun = min (old.validRun + 1) 65535 ∧ new.invalidRun = 0
  ofInvalid : ¬valid → new.invalidRun = min (old.invalidRun + 1) 65535 ∧ new.validRun = 0
  falls : old.health = .good → (new.health = .fault ↔ 5 ≤ new.invalidRun)
  recovers : old.health = .fault → (new.health = .good ↔ 20 ≤ new.validRun)

theorem Channel.scan_counted (ch : Channel) (valid : Bool) : ch.Counted (ch.scan valid) (valid = true) where
  ofValid h := by simp [Channel.scan, h, Config.max16]
  ofInvalid h := by simp [Channel.scan, h, Config.max16]
  falls h := by simp [Channel.scan, h]
  recovers h := by simp [Channel.scan, h]

/-- A GOOD channel stays GOOD at a valid reading. -/
theorem Channel.scan_valid_of_good {ch : Channel} (good : ch.health = .good) :
    ch.scan true = { health := .good, invalidRun := 0, validRun := min (ch.validRun + 1) 65535 } := by
  simp [Channel.scan, good, Config.max16]

theorem entersFault_iff {old new : Health} : entersFault old new = true ↔ old = .good ∧ new = .fault := by
  simp [entersFault]

/-! ### The level history and the stored temperature (R119, R120) -/

theorem pushLevel_eq (levels : List Nat) (v : Nat) :
    pushLevel levels v = (levels ++ [v]).drop (levels.length + 1 - 16) := by
  simp [pushLevel, Config.ringRoom]

section Scanner

variable (b : BathScanner)

/-- The level channel's stage leaves the temperature's part. -/
theorem BathScanner.scanLevel_frame (v : Option Nat) :
    b.scanLevel v = { b with level := b.level.scan v.isSome, levels := (b.scanLevel v).levels } := rfl

/-- The temperature channel's stage leaves the level's part. -/
theorem BathScanner.scanTemp_frame (v : Option Nat) :
    b.scanTemp v =
      { b with temp := b.temp.scan v.isSome, stored := (b.scanTemp v).stored, age := (b.scanTemp v).age } := by
  unfold BathScanner.scanTemp
  dsimp only
  split
  · split <;> rfl
  · rfl

/-- The level history after a scan (R119). -/
theorem BathScanner.scanLevel_levels (P : Prop) [Decidable P] (x : Nat) :
    (b.scanLevel (if P then some x else none)).levels =
      if P ∧ (b.level.scan (decide P)).health = .good then (b.levels ++ [x]).drop (b.levels.length + 1 - 16)
      else if b.level.health = .good ∧ (b.level.scan (decide P)).health = .fault then [] else b.levels := by
  unfold BathScanner.scanLevel
  by_cases valid : P
  · by_cases good : (b.level.scan true).health = .good
    · simp [valid, good, pushLevel_eq, entersFault]
    · simp [valid, good, entersFault]
  · simp [valid, entersFault]

/-- The stored temperature and its age after a valid reading of a channel then GOOD (R120). -/
theorem BathScanner.scanTemp_of_stored {x : Nat} (good : (b.temp.scan true).health = .good) :
    b.scanTemp (some x) = { b with temp := b.temp.scan true, stored := some x, age := 0 } := by
  simp [BathScanner.scanTemp, good]

/-- The stored temperature and its age after any other scan (R120). -/
theorem BathScanner.scanTemp_of_not_stored {v : Option Nat} (h : v = none ∨ (b.temp.scan v.isSome).health ≠ .good) :
    let stored := if b.temp.health = .good ∧ (b.temp.scan v.isSome).health = .fault then none else b.stored
    b.scanTemp v =
      { b with
        temp := b.temp.scan v.isSome, stored := stored
        age := if stored.isSome then min (b.age + 1) 65535 else 0 } := by
  cases v with
  | none => simp [BathScanner.scanTemp, entersFault, Config.max16]
  | some x =>
    have bad : (b.temp.scan true).health ≠ .good := by simpa using h
    simp [BathScanner.scanTemp, entersFault, bad, Config.max16]

/-- A valid level and a valid temperature of GOOD channels (R118 to R120). -/
theorem BathScanner.scan_taken (goodLevel : b.level.health = .good) (goodTemp : b.temp.health = .good) (lv tv : Nat) :
    (b.scanLevel (some lv)).scanTemp (some tv) = b.taken lv tv := by
  have level := Channel.scan_valid_of_good goodLevel
  have temp := Channel.scan_valid_of_good goodTemp
  have levels := b.scanLevel_levels True lv
  simp only [if_true, decide_true, level, true_and] at levels
  rw [BathScanner.scanTemp_of_stored _ (by simp [BathScanner.scanLevel, temp]), BathScanner.scanLevel_frame, levels]
  simp [BathScanner.taken, level, temp]

end Scanner

/-! ### The judgement of quiet, and of a reconciliation (R123, R124) -/

theorem State.tempOk_iff (s : State) :
    s.tempOk = true ↔
      s.bath.temp.health = .good ∧ s.bath.age ≤ 60 ∧
        ∃ v ∈ s.bath.stored, s.settings.tempLow ≤ v ∧ v ≤ s.settings.tempHigh := by
  unfold State.tempOk State.tempKnown
  cases s.bath.stored with
  | none => simp
  | some v => simp [and_assoc, and_comm, and_left_comm]

theorem State.quietNow_iff (s : State) :
    s.quietNow = true ↔ s.still = true ∧ (∃ q ∈ s.recon.quiet, s.settings.quietTime * 10 ≤ q) ∧ s.tempOk = true := by
  unfold State.quietNow
  cases s.recon.quiet <;> simp [and_assoc]

theorem State.reconciles_iff (s : State) :
    s.reconciles = true ↔
      s.recon.judgedQuiet = true ∧ 16 ≤ s.recon.quietLevels ∧
        (s.recon.since = none ∨ s.recon.pending = true ∨ ∃ m, s.recon.since = some m ∧ s.settings.interval * 600 ≤ m) := by
  unfold State.reconciles
  cases s.recon.since <;> simp [and_assoc]

theorem State.judgeQuiet_of_quiet {s : State} (quiet : s.quietNow = true) (stored : Bool) :
    s.judgeQuiet stored =
      { s with
        recon :=
          { s.recon with
            judgedQuiet := true
            quietLevels := if stored then min (s.recon.quietLevels + 1) 65535 else s.recon.quietLevels } } :=
  if_pos quiet

theorem State.judgeQuiet_of_not_quiet {s : State} (unquiet : s.quietNow = false) (stored : Bool) :
    s.judgeQuiet stored = { s with recon := { s.recon with judgedQuiet := false, quietLevels := 0, pending := false } } :=
  if_neg (by simp [unquiet])

end Sys2Proof.Machine

namespace Sys2Proof.Machine

/-! ### A bath scan of a running part (R117, R192) -/

/-- The state in which a bath scan's stages find the part: the writes of the scan before it made, and a word of the store scrubbed. -/
def State.beforeScan (s : State) : State := (({ s with store := s.store.disturb [] }).writeDue .bathScan).scrub

/-- With no write due before a scan, none is due after those of the scan before it are made. -/
theorem State.beforeScan_unsaved {s : State} (saved : s.unsaved = []) : s.beforeScan.unsaved = [] := by
  change laterSteps .bathScan s.unsaved = []
  rw [saved]
  rfl

theorem exec_bathScan {s : State} (run : s.phase = .running) (rl rt : Reading) :
    exec (.bathScan rl rt []) s = .next (s.beforeScan.endEvent (s.beforeScan.scanBath rl rt) .bathScan) :=
  congrArg Host.Outcome.next (if_pos run)

/-- The bath scanner after the stages of both channels (R117 to R120). -/
def State.scannedBath (s : State) (rl rt : Reading) : BathScanner :=
  (s.bath.scanLevel (validReading rl s.settings.levelZero s.settings.levelSpan 40000)).scanTemp
    (validReading rt s.settings.tempZero s.settings.tempSpan 8000)

/-- The temperature is OK as a scan leaves it (R120, R168). -/
def State.tempOkAfter (s : State) (rl rt : Reading) : Prop :=
  (s.scannedBath rl rt).temp.health = .good ∧ (s.scannedBath rl rt).age ≤ 60 ∧
    ∃ v ∈ (s.scannedBath rl rt).stored, s.settings.tempLow ≤ v ∧ v ≤ s.settings.tempHigh

/-- The kettle is judged quiet at a scan: still, the quiet timer at Q or above it, the temperature OK (R123). -/
def State.quietAt (s : State) (rl rt : Reading) : Prop :=
  s.still = true ∧ (∃ q ∈ s.recon.quiet, s.settings.quietTime * 10 ≤ q) ∧ s.tempOkAfter rl rt

theorem State.quietNow_scanChannels (s : State) (rl rt : Reading) :
    (s.scanChannels rl rt).quietNow = true ↔ s.quietAt rl rt := by
  rw [State.quietNow_iff, State.tempOk_iff]
  rfl

/-- The level of a scan is valid (R118). -/
abbrev State.levelGood (s : State) (rl : Reading) : Prop := readsIn rl s.settings.levelZero s.settings.levelSpan 40000

/-- The temperature of a scan is valid (R118). -/
abbrev State.tempGood (s : State) (rt : Reading) : Prop := readsIn rt s.settings.tempZero s.settings.tempSpan 8000

section ScannedBath

variable (s : State) (rl rt : Reading)

theorem State.scannedBath_level : (s.scannedBath rl rt).level = s.bath.level.scan (decide (s.levelGood rl)) := by
  rw [State.scannedBath, BathScanner.scanTemp_frame, BathScanner.scanLevel_frame, isSome_validReading]

theorem State.scannedBath_temp : (s.scannedBath rl rt).temp = s.bath.temp.scan (decide (s.tempGood rt)) := by
  rw [State.scannedBath, BathScanner.scanTemp_frame, ← isSome_validReading]
  rfl

/-- The level history after a scan (R119). -/
theorem State.scannedBath_levels :
    (s.scannedBath rl rt).levels =
      if s.levelGood rl ∧ (s.scannedBath rl rt).level.health = .good then
        (s.bath.levels ++ [((rl.raw.toInt - s.settings.levelZero) * s.settings.levelSpan / 65536).toNat]).drop
          (s.bath.levels.length + 1 - 16)
      else if s.bath.level.health = .good ∧ (s.scannedBath rl rt).level.health = .fault then [] else s.bath.levels := by
  rw [State.scannedBath_level, ← BathScanner.scanLevel_levels, ← validReading_eq, State.scannedBath,
    BathScanner.scanTemp_frame]

/-- The temperature of a scan that stores it (R120). -/
theorem State.scannedBath_of_stored (stored : s.tempGood rt ∧ (s.scannedBath rl rt).temp.health = .good) :
    (s.scannedBath rl rt).stored = some ((rt.raw.toInt - s.settings.tempZero) * s.settings.tempSpan / 65536).toNat ∧
      (s.scannedBath rl rt).age = 0 := by
  obtain ⟨valid, good⟩ := stored
  rw [State.scannedBath_temp, decide_eq_true valid] at good
  rw [State.scannedBath, validReading_eq rt, if_pos valid, BathScanner.scanTemp_of_stored _ (by exact good)]
  exact ⟨rfl, rfl⟩

/-- The temperature of any other scan (R120). -/
theorem State.scannedBath_of_not_stored (stored : ¬(s.tempGood rt ∧ (s.scannedBath rl rt).temp.health = .good)) :
    (s.scannedBath rl rt).stored =
        (if s.bath.temp.health = .good ∧ (s.scannedBath rl rt).temp.health = .fault then none else s.bath.stored) ∧
      ((s.scannedBath rl rt).stored ≠ none → (s.scannedBath rl rt).age = min (s.bath.age + 1) 65535) := by
  rw [State.scannedBath_temp] at stored ⊢
  have other : validReading rt s.settings.tempZero s.settings.tempSpan 8000 = none ∨
      (s.bath.temp.scan (validReading rt s.settings.tempZero s.settings.tempSpan 8000).isSome).health ≠ .good := by
    rw [isSome_validReading, validReading_eq]
    by_cases valid : s.tempGood rt
    · exact .inr fun good => stored ⟨valid, good⟩
    · exact .inl (if_neg valid)
  rw [State.scannedBath, BathScanner.scanTemp_of_not_stored _ (by exact other)]
  dsimp only
  rw [isSome_validReading]
  exact ⟨rfl, fun present => if_pos (Option.isSome_iff_ne_none.mpr present)⟩

end ScannedBath

/-- The levels since quiet began as a scan judged quiet leaves them: one more with a stored level, none where the level channel
enters FAULT (R119, R123). -/
def State.levelsAfter (s : State) (rl : Reading) : Nat :=
  if s.levelGood rl ∧ (s.bath.level.scan (decide (s.levelGood rl))).health = .good then min (s.recon.quietLevels + 1) 65535
  else if s.bath.level.health = .good ∧ (s.bath.level.scan (decide (s.levelGood rl))).health = .fault then 0
  else s.recon.quietLevels

/-- The count that the stages of a scan come to (R117, R123). -/
theorem State.storedLevels_eq (s : State) (rl : Reading) :
    (if s.bath.storesLevel (validReading rl s.settings.levelZero s.settings.levelSpan 40000) then
        min ((if entersFault s.bath.level.health
          (s.bath.level.scan (validReading rl s.settings.levelZero s.settings.levelSpan 40000).isSome).health
            then 0 else s.recon.quietLevels) + 1) 65535
      else if entersFault s.bath.level.health
          (s.bath.level.scan (validReading rl s.settings.levelZero s.settings.levelSpan 40000).isSome).health
            then 0 else s.recon.quietLevels) = s.levelsAfter rl := by
  unfold State.levelsAfter BathScanner.storesLevel
  simp only [isSome_validReading, entersFault_iff, Bool.and_eq_true, beq_iff_eq, decide_eq_true_eq]
  split
  · rename_i stored
    rw [if_neg fun fell => absurd (stored.2.symm.trans fell.2) (by decide)]
  · rfl

theorem State.scanQuiet_of_quiet {s : State} {rl rt : Reading} (quiet : s.quietAt rl rt) :
    s.scanQuiet rl rt =
      { s with
        bath := s.scannedBath rl rt
        recon := { s.recon with quietLevels := s.levelsAfter rl, judgedQuiet := true } } := by
  unfold State.scanQuiet
  rw [State.judgeQuiet_of_quiet ((s.quietNow_scanChannels rl rt).mpr quiet), ← State.storedLevels_eq]
  rfl

theorem State.scanQuiet_of_not_quiet {s : State} {rl rt : Reading} (unquiet : ¬s.quietAt rl rt) :
    s.scanQuiet rl rt =
      { s with
        bath := s.scannedBath rl rt
        recon := { s.recon with quietLevels := 0, judgedQuiet := false, pending := false } } := by
  unfold State.scanQuiet
  rw [State.judgeQuiet_of_not_quiet (Bool.eq_false_iff.mpr fun quiet => unquiet ((s.quietNow_scanChannels rl rt).mp quiet))]
  rfl

/-- The feed-demand line at its level stays there when it is judged (R134). -/
theorem State.judgeFeed_of_level {s : State} (level : s.lines.feed = s.feedLevel) : s.judgeFeed = s := by
  unfold State.judgeFeed
  rw [← level, if_neg (by simp)]

theorem State.scanQuiet_still (s : State) (rl rt : Reading) : (s.scanQuiet rl rt).still = s.still := by
  unfold State.scanQuiet State.judgeQuiet
  split <;> rfl

theorem State.scanQuiet_image (s : State) (rl rt : Reading) : (s.scanQuiet rl rt).image = s.image := by
  unfold State.scanQuiet State.judgeQuiet
  split <;> rfl

/-- A scan that does not reconcile ends with the lines judged: the feed-demand line stands at its level already. -/
theorem exec_bathScan_of_not_reconciles {s : State} {rl rt : Reading} (run : s.phase = .running) (lawful : s.linesLawful)
    (no : (s.beforeScan.scanQuiet rl rt).reconciles = false) :
    exec (.bathScan rl rt []) s = .next (s.beforeScan.scanQuiet rl rt).judgeLines := by
  have level : (s.beforeScan.scanQuiet rl rt).lines.feed = (s.beforeScan.scanQuiet rl rt).feedLevel := by
    have feed := lawful
    rw [State.linesLawful, run] at feed
    have view : s.bookView.feed = s.bookView.level := feed.2
    rw [← show s.beforeScan.bookView = s.bookView from rfl, ← s.beforeScan.scanQuiet_bookView rl rt] at view
    exact view
  rw [exec_bathScan run, State.scanBath_eq, if_neg (by simp [no]), State.judgeFeed_of_level level,
    State.endEvent_of_still _ (State.scanQuiet_image _ rl rt) (State.scanQuiet_still _ rl rt)]

end Sys2Proof.Machine

namespace Sys2Proof.Machine

/-! ### Scans that do not reconcile (R119, R123, R124) -/

/-- The levels since quiet began are too few, or the interval runs and no request stands: R124 takes no reconciliation. -/
def State.staysUnreconciled (s : State) (levels : Nat) : Prop :=
  levels < 16 ∨ (s.recon.pending = false ∧ ∃ m : Nat, s.recon.since = some m ∧ m < s.settings.interval * 600)

/-- What a scan that does not reconcile leaves: the scanner and the quiet state as its stages leave them, the store's writes and the
lines. -/
structure State.ScannedTo (s t : State) (bath : BathScanner) (recon : Reconcile) : Prop where
  frame : t = { s with bath := bath, recon := recon, store := t.store, scrubAt := t.scrubAt, unsaved := t.unsaved, lines := t.lines }
  saved : s.unsaved = [] → t.unsaved = []

/-- A scan that does not reconcile ends with the lines judged. -/
theorem State.scannedTo_of_scanQuiet {s : State} {rl rt : Reading} {bath : BathScanner} {recon : Reconcile}
    (judged : s.beforeScan.scanQuiet rl rt = { s.beforeScan with bath := bath, recon := recon }) :
    s.ScannedTo (s.beforeScan.scanQuiet rl rt).judgeLines bath recon := by
  rw [judged]
  exact ⟨rfl, State.beforeScan_unsaved⟩

theorem exec_bathScan_of_not_quiet {s : State} {rl rt : Reading} (run : s.phase = .running) (lawful : s.linesLawful)
    (unquiet : ¬s.quietAt rl rt) :
    ∃ t : State, exec (.bathScan rl rt []) s = .next t ∧
      s.ScannedTo t (s.scannedBath rl rt) { s.recon with quietLevels := 0, judgedQuiet := false, pending := false } := by
  have judged := State.scanQuiet_of_not_quiet (s := s.beforeScan) unquiet
  exact ⟨_, exec_bathScan_of_not_reconciles run lawful (by rw [judged]; rfl), State.scannedTo_of_scanQuiet judged⟩

theorem exec_bathScan_of_quiet {s : State} {rl rt : Reading} (run : s.phase = .running) (lawful : s.linesLawful)
    (quiet : s.quietAt rl rt) (stays : s.staysUnreconciled (s.levelsAfter rl)) :
    ∃ t : State, exec (.bathScan rl rt []) s = .next t ∧
      s.ScannedTo t (s.scannedBath rl rt) { s.recon with quietLevels := s.levelsAfter rl, judgedQuiet := true } := by
  have judged := State.scanQuiet_of_quiet (s := s.beforeScan) quiet
  have no : (s.beforeScan.scanQuiet rl rt).reconciles = false := by
    rw [Bool.eq_false_iff, ne_eq, State.reconciles_iff, judged]
    rintro ⟨-, enough, due⟩
    change 16 ≤ s.levelsAfter rl at enough
    rcases stays with few | ⟨none, m, since, running⟩
    · omega
    · rcases due with h | h | ⟨n, h, past⟩
      · exact absurd (since.symm.trans h) (by simp)
      · exact absurd (none.symm.trans h) (by simp)
      · obtain rfl : m = n := Option.some.inj (since.symm.trans h)
        exact absurd running (not_lt.mpr past)
  exact ⟨_, exec_bathScan_of_not_reconciles run lawful no, State.scannedTo_of_scanQuiet judged⟩

/-! ### The reconciliation (R125 to R128) -/

/-- The gauge mass of the levels that stand in the history (R125). -/
def State.gauged (s : State) : Nat := gaugeMass s.settings (meanLevel s.bath.levels)

/-- The volatile part of the book after a reconciliation (R124, R125). -/
def State.reconAfter (s : State) : Reconcile :=
  { s.recon with gauge := some s.gauged, diff := some ((s.book.mass : Int) - s.gauged), since := some 0, pending := false }

/-- A reconciliation changes the book and its volatile part, and queues a record and notices. -/
theorem State.reconcile_frame (s : State) :
    s.reconcile =
      { s with
        recon := s.reconAfter, book := s.book.reconciled s.settings s.gauged, records := s.reconcile.records
        notices := s.reconcile.notices } := by
  unfold State.reconcile Book.reconciled State.reconAfter State.gauged
  dsimp only
  split
  · rfl
  · split
    · split <;> rfl
    · rfl

theorem State.reconcile_still (s : State) : s.reconcile.still = s.still := by
  rw [State.reconcile_frame]
  rfl

theorem State.judgeFeed_still (s : State) : s.judgeFeed.still = s.still := by simp [State.still]

section Reconcile

variable {s : State}

/-- An INVALID book is reseeded, with a BOOK_OPENED record (R126). -/
theorem State.reconcile_of_invalid (invalid : s.book.state = .invalid) :
    s.reconcile.book = s.book.reseed s.gauged ∧ s.reconcile.records = s.records.push (.bookOpened s.gauged) ∧
      s.reconcile.notices = s.notices := by
  rw [show s.reconcile = _ from if_pos invalid]
  exact ⟨rfl, rfl, rfl⟩

/-- A book within the alarm is trimmed, with a TRIM record beyond the tolerance (R127). -/
theorem State.reconcile_of_within (valid : s.book.state ≠ .invalid)
    (within : ((s.book.mass : Int) - s.gauged).natAbs ≤ s.settings.alarm) :
    s.reconcile.book = s.book.trim (trimOf s.settings ((s.book.mass : Int) - s.gauged)) ∧
      s.reconcile.records =
        (if s.settings.tolerance < ((s.book.mass : Int) - s.gauged).natAbs then
          s.records.push (.trim ((s.book.mass : Int) - s.gauged) (trimOf s.settings ((s.book.mass : Int) - s.gauged)))
        else s.records) ∧
      s.reconcile.notices = s.notices := by
  rw [show s.reconcile = _ from (if_neg valid).trans (if_pos within)]
  by_cases far : s.settings.tolerance < ((s.book.mass : Int) - s.gauged).natAbs
  · rw [if_pos far, if_pos (by exact far)]
    exact ⟨rfl, rfl, rfl⟩
  · rw [if_neg far, if_neg (by exact far)]
    exact ⟨rfl, rfl, rfl⟩

/-- A book beyond the alarm drifts, with its record and its notices (R128). -/
theorem State.reconcile_of_beyond (valid : s.book.state ≠ .invalid)
    (beyond : s.settings.alarm < ((s.book.mass : Int) - s.gauged).natAbs) :
    s.reconcile.book = { s.book with state := .drifting } ∧
      s.reconcile.records = s.records.push (.drift ((s.book.mass : Int) - s.gauged) s.gauged) ∧
      s.reconcile.notices =
        { s.notices with
          feed := s.notices.feed.push (.drift ((s.book.mass : Int) - s.gauged))
          office := s.notices.office.push (.drift ((s.book.mass : Int) - s.gauged)) } := by
  rw [show s.reconcile = _ from (if_neg valid).trans (if_neg (not_le.mpr beyond))]
  exact ⟨rfl, rfl, rfl⟩

end Reconcile

theorem gaugeMass_eq (t : Settings) (lm : Nat) : gaugeMass t lm = (lm - t.floorLevel) * t.areaDensity / 256 := by
  unfold gaugeMass
  split
  · rfl
  · rename_i low
    rw [Nat.sub_eq_zero_of_le (not_lt.mp low), zero_mul, Nat.zero_div]

theorem trimOf_eq (t : Settings) (d : Int) :
    trimOf t d = max (-(t.maxTrim : Int)) (min t.maxTrim ((d * t.trimGain).tdiv 16)) := by
  unfold trimOf clampInt
  split_ifs <;> omega

/-- A step that does not move stillness leaves the quiet state (R122). -/
theorem State.judgeStill_of_still {old new : State} (still : new.still = old.still) : old.judgeStill new = new := by
  unfold State.judgeStill
  rw [still]
  cases old.still <;> rfl

/-- A scan that reconciles: the reconciliation after the judgement of quiet, and the feed-demand line judged (R117, R134). -/
theorem exec_bathScan_of_reconciles {s : State} {rl rt : Reading} (run : s.phase = .running)
    (yes : (s.beforeScan.scanQuiet rl rt).reconciles = true) :
    ∃ t : State, exec (.bathScan rl rt []) s = .next t ∧
      t = { (s.beforeScan.scanQuiet rl rt).reconcile.judgeFeed with unsaved := t.unsaved, lines := t.lines } ∧
      t.lines.feed = (s.beforeScan.scanQuiet rl rt).reconcile.judgeFeed.lines.feed := by
  have scan : s.beforeScan.scanBath rl rt = (s.beforeScan.scanQuiet rl rt).reconcile.judgeFeed := by
    rw [State.scanBath_eq, if_pos yes]
  refine ⟨_, exec_bathScan run rl rt, ?_, ?_⟩ <;> rw [scan]
  · conv_lhs => rw [State.endEvent_frame]
    rw [State.judgeStill_of_still
      (by rw [State.judgeFeed_still, State.reconcile_still, State.scanQuiet_still])]
  · exact congrArg BookView.feed (State.endEvent_bookView _ _ _)

/-- Whatever a bath scan does beside, its channels, its history and its stored temperature are those of its stages. -/
theorem exec_bathScan_bath {s t : State} {rl rt : Reading} (run : s.phase = .running)
    (h : exec (.bathScan rl rt []) s = .next t) : t.bath = s.scannedBath rl rt := by
  rw [exec_bathScan run] at h
  cases h
  rw [State.endEvent_frame, State.scanBath_eq]
  dsimp only
  rw [State.judgeFeed_bath]
  have judged : (s.beforeScan.scanQuiet rl rt).bath = s.scannedBath rl rt := by
    unfold State.scanQuiet State.judgeQuiet
    split <;> rfl
  split
  · rw [State.reconcile_frame]
    exact judged
  · exact judged

end Sys2Proof.Machine

namespace Sys2Proof.Machine

/-! ### Scans of valid readings (R118 to R120) -/

/-- An invalid reading that does not make five in a row leaves a GOOD channel GOOD (R118). -/
theorem Channel.scan_invalid_of_good {ch : Channel} (good : ch.health = .good) (few : ch.invalidRun < 4) :
    (ch.scan false).health = .good := by
  have run : ¬5 ≤ min (ch.invalidRun + 1) 65535 := by omega
  simp [Channel.scan, good, Config.max16, run]

section ScansBath

variable {s : State} {rl rt : Reading} {lv tv q : Nat}

theorem State.scansBath.levelGood (scans : s.scansBath rl rt lv tv) : s.levelGood rl := by
  obtain ⟨-, -, -, -, clear, -, low, -, value, -⟩ := scans
  exact ⟨clear, by omega, by omega⟩

theorem State.scansBath.tempGood (scans : s.scansBath rl rt lv tv) : s.tempGood rt := by
  obtain ⟨-, -, -, -, -, clear, -, low, -, value⟩ := scans
  exact ⟨clear, by omega, by omega⟩

theorem State.scansBath.scannedBath_eq (scans : s.scansBath rl rt lv tv) : s.scannedBath rl rt = s.bath.taken lv tv := by
  have goodL := scans.levelGood
  have goodT := scans.tempGood
  obtain ⟨-, -, level, temp, -, -, -, -, valueL, valueT⟩ := scans
  rw [State.scannedBath, validReading_eq, validReading_eq, if_pos goodL, if_pos goodT, valueL, valueT, Int.toNat_natCast,
    Int.toNat_natCast, BathScanner.scan_taken _ level temp]

theorem State.scansBath.levelsAfter_eq (scans : s.scansBath rl rt lv tv) :
    s.levelsAfter rl = min (s.recon.quietLevels + 1) 65535 := by
  obtain ⟨-, -, level, -⟩ := id scans
  rw [State.levelsAfter, decide_eq_true scans.levelGood, Channel.scan_valid_of_good level]
  exact if_pos ⟨scans.levelGood, rfl⟩

/-- A still kettle, quiet long enough, at a valid temperature of its window is judged quiet, whatever level the scan brings. -/
theorem State.scansBath.quietAt (scans : s.scansBath rl rt lv tv) (still : s.still = true) (timer : s.recon.quiet = some q)
    (long : s.settings.quietTime * 10 ≤ q) (low : s.settings.tempLow ≤ tv) (high : tv ≤ s.settings.tempHigh)
    (r : Reading) : s.quietAt r rt := by
  have goodT := scans.tempGood
  obtain ⟨-, -, -, temp, -, -, -, -, -, valueT⟩ := scans
  have health : (s.scannedBath r rt).temp.health = .good := by
    rw [State.scannedBath_temp, decide_eq_true goodT, Channel.scan_valid_of_good temp]
  obtain ⟨stored, age⟩ := s.scannedBath_of_stored r rt ⟨goodT, health⟩
  rw [valueT, Int.toNat_natCast] at stored
  exact ⟨still, ⟨q, timer, long⟩, health, by omega, tv, stored, low, high⟩

/-- A scan whose level is marked as an overload stores no level and, within five invalid readings, keeps the count (R118, R119). -/
theorem State.scansBath.overloaded (scans : s.scansBath rl rt lv tv) (few : s.bath.level.invalidRun < 4) :
    (s.scannedBath { rl with overload := true } rt).levels = s.bath.levels ∧
      s.levelsAfter { rl with overload := true } = s.recon.quietLevels := by
  obtain ⟨-, -, level, -⟩ := scans
  have bad : ¬s.levelGood { rl with overload := true } := fun good => absurd good.1 (by simp)
  have kept := Channel.scan_invalid_of_good level few
  rw [State.scannedBath_levels, State.scannedBath_level, State.levelsAfter, decide_eq_false bad, kept]
  simp [bad]

/-- The state of a quiet scan of valid readings before it reconciles. -/
def State.scannedQuiet (s : State) (lv tv : Nat) : State :=
  { s with
    bath := s.bath.taken lv tv
    recon := { s.recon with quietLevels := min (s.recon.quietLevels + 1) 65535, judgedQuiet := true }
    store := s.beforeScan.store, scrubAt := s.beforeScan.scrubAt, unsaved := s.beforeScan.unsaved }

theorem State.scansBath.scanQuiet_eq (scans : s.scansBath rl rt lv tv) (quiet : s.quietAt rl rt) :
    s.beforeScan.scanQuiet rl rt = s.scannedQuiet lv tv := by
  have judged := State.scanQuiet_of_quiet (s := s.beforeScan) quiet
  rw [judged, State.scannedQuiet, ← scans.scannedBath_eq, ← scans.levelsAfter_eq]
  rfl

end ScansBath

theorem State.scannedQuiet_gauged (s : State) (lv tv : Nat) :
    (s.scannedQuiet lv tv).gauged =
      (((s.bath.levels ++ [lv]).drop (s.bath.levels.length + 1 - 16)).sum / 16 - s.settings.floorLevel) *
        s.settings.areaDensity / 256 := gaugeMass_eq _ _

/-- What a quiet scan of valid readings that reconciles leaves: the book as the reconciliation and the feed-demand line's rule leave
it, a record, notices, and the scanner and the quiet state as its stages leave them. -/
structure State.ReconciledTo (s t : State) (lv tv : Nat) : Prop where
  recon : t.recon = (s.scannedQuiet lv tv).reconAfter
  book : t.book = (s.scannedQuiet lv tv).reconcile.book
  records : t.records = (s.scannedQuiet lv tv).reconcile.records
  notices : t.notices =
    (({ s with notices := (s.scannedQuiet lv tv).reconcile.notices } : State).withBook t.book).notices
  feed : t.lines.feed = (s.withBook t.book).lines.feed
  frame : t = { s with
    bath := s.bath.taken lv tv, recon := t.recon, book := t.book, records := t.records, notices := t.notices
    store := t.store, scrubAt := t.scrubAt, unsaved := t.unsaved, lines := t.lines }

/-- A state that changes these components of another is that state with its own components. -/
theorem State.scanned_frame {s t : State} {bath : BathScanner} {recon : Reconcile} {book : Book} {records : RecordQueue}
    {notices : PerPort NoticeQueue} {store : Store} {scrubAt : Nat} {unsaved : List DueStep} {lines : Lines}
    (frame : t = { s with
      bath := bath, recon := recon, book := book, records := records, notices := notices
      store := store, scrubAt := scrubAt, unsaved := unsaved, lines := lines }) :
    t = { s with
      bath := bath, recon := t.recon, book := t.book, records := t.records, notices := t.notices
      store := t.store, scrubAt := t.scrubAt, unsaved := t.unsaved, lines := t.lines } := by
  subst frame
  rfl

/-- What a scan and its reconciliation have changed before the feed-demand line is judged. -/
theorem State.scannedQuiet_reconcile_frame (s : State) (lv tv : Nat) :
    (s.scannedQuiet lv tv).reconcile =
      { s with
        bath := s.bath.taken lv tv, recon := (s.scannedQuiet lv tv).reconAfter
        book := s.book.reconciled s.settings (s.scannedQuiet lv tv).gauged
        records := (s.scannedQuiet lv tv).reconcile.records, notices := (s.scannedQuiet lv tv).reconcile.notices
        store := s.beforeScan.store, scrubAt := s.beforeScan.scrubAt, unsaved := s.beforeScan.unsaved } := by
  conv_lhs => rw [State.reconcile_frame]
  dsimp only [State.scannedQuiet]

/-- The feed-demand line's rule after a reconciliation looks at the part before it. -/
theorem State.reconciledTo_of_judgeFeed {s t : State} {lv tv : Nat}
    (frame : t = { (s.scannedQuiet lv tv).reconcile.judgeFeed with unsaved := t.unsaved, lines := t.lines })
    (feed : t.lines.feed = (s.scannedQuiet lv tv).reconcile.judgeFeed.lines.feed) : s.ReconciledTo t lv tv := by
  have reconciled := s.scannedQuiet_reconcile_frame lv tv
  rw [State.judgeFeed_eq_withBook] at frame feed
  suffices ∀ r : State, r = (s.scannedQuiet lv tv).reconcile → s.ReconciledTo t lv tv from this _ rfl
  intro r eq
  rw [← eq] at frame feed reconciled
  have recon : t.recon = (s.scannedQuiet lv tv).reconAfter :=
    (congrArg State.recon frame).trans ((congrArg State.recon reconciled).trans rfl)
  have book : t.book = r.book := (congrArg State.book frame).trans rfl
  refine ⟨recon, eq ▸ book, eq ▸ (congrArg State.records frame).trans rfl, ?_, ?_, ?_⟩
  · rw [← eq, book, (congrArg State.notices frame).trans rfl, reconciled]
    rfl
  · rw [feed, book, reconciled]
    rfl
  · rw [reconciled] at frame
    exact State.scanned_frame frame

/-- A quiet scan of valid readings reconciles with 16 levels, when the interval is past or a request stands (R124). -/
theorem exec_bathScan_reconciledTo {s : State} {rl rt : Reading} {lv tv : Nat} (scans : s.scansBath rl rt lv tv)
    (quiet : s.quietAt rl rt) (enough : 15 ≤ s.recon.quietLevels)
    (due : s.recon.since = none ∨ s.recon.pending = true ∨ ∃ m, s.recon.since = some m ∧ s.settings.interval * 600 ≤ m) :
    ∃ t : State, exec (.bathScan rl rt []) s = .next t ∧ s.ReconciledTo t lv tv := by
  have judged := scans.scanQuiet_eq quiet
  have yes : (s.beforeScan.scanQuiet rl rt).reconciles = true := by
    rw [judged, State.reconciles_iff]
    refine ⟨rfl, ?_, due⟩
    change 16 ≤ min (s.recon.quietLevels + 1) 65535
    omega
  obtain ⟨t, taken, frame, feed⟩ := exec_bathScan_of_reconciles scans.1 yes
  rw [judged] at frame feed
  exact ⟨t, taken, State.reconciledTo_of_judgeFeed frame feed⟩

/-! ### A trim within its limits (R127) -/

theorem Book.trim_eq (b : Book) (a : Int) :
    b.trim a =
      { b with
        mass := (b.trim a).mass, state := .valid
        adjusted := max (-140737488355327) (min 140737488355327 (b.adjusted + a))
        saturated := b.saturated ||
          decide (b.adjusted + a < -140737488355327 ∨ 140737488355327 < b.adjusted + a) } := by
  unfold Book.trim
  rw [Book.adjust_eq]

/-- A trim by the limited A moves M by A, and no further than to G. -/
theorem Book.trim_between {t : Settings} (gain : t.trimGain ≤ 16) (b : Book) (g : Nat) {a : Int}
    (limited : trimOf t ((b.mass : Int) - g) = a) :
    ((b.trim a).mass : Int) = b.mass - a ∧
      (g ≤ (b.trim a).mass ∧ (b.trim a).mass ≤ b.mass ∨ b.mass ≤ (b.trim a).mass ∧ (b.trim a).mass ≤ g) := by
  obtain ⟨above, below⟩ := trimOf_between gain ((b.mass : Int) - g)
  have mass : (b.trim a).mass = ((b.mass : Int) - a).toNat := rfl
  omega

/-- Settles O52, by what a scan comes to: its channels alone, a kettle not quiet, a quiet one that does not reconcile, and one that
does. -/
theorem a_bath_scan_reconciles_a_quiet_kettle_only : Obligations.A_bath_scan_reconciles_a_quiet_kettle_only := by
  refine ⟨?_, ?_, ?_⟩
  case refine_1 =>
    intro s rl rt run lawful lv tv levelGood tempGood counted
    have taken := exec_bathScan run rl rt
    generalize s.beforeScan.endEvent (s.beforeScan.scanBath rl rt) .bathScan = t at taken
    have bath := exec_bathScan_bath run taken
    have level := s.scannedBath_level rl rt
    have temp := s.scannedBath_temp rl rt
    have countedOf : ∀ {old new : Channel} {P : Prop} [Decidable P], new = old.scan (decide P) → counted old new P := by
      rintro old new P _ rfl
      have count := old.scan_counted (decide P)
      simp only [decide_eq_true_eq] at count
      exact ⟨count.ofValid, count.ofInvalid, count.falls, count.recovers⟩
    refine ⟨t, taken, ?_⟩
    rw [bath]
    refine ⟨countedOf level, countedOf temp, s.scannedBath_levels rl rt, s.scannedBath_of_stored rl rt,
      s.scannedBath_of_not_stored rl rt, fun unquiet => ?_, fun still timer tempOk => ?_⟩
    · have restless : ¬s.quietAt rl rt := by
        rintro ⟨still, ⟨q, mem, long⟩, ok⟩
        rcases unquiet with h | h | h
        · exact absurd (still.symm.trans h) (by simp)
        · exact absurd (h q mem) (not_lt.mpr long)
        · exact h ok
      obtain ⟨u, takenU, scanned⟩ := exec_bathScan_of_not_quiet run lawful restless
      obtain rfl : u = t := Host.Outcome.next.inj (takenU.symm.trans taken)
      exact scanned.frame
    · intro n stays
      have count : n = s.levelsAfter rl := by
        simp only [n, level]
        rfl
      rw [count] at stays ⊢
      obtain ⟨u, takenU, scanned⟩ := exec_bathScan_of_quiet run lawful ⟨still, timer, tempOk⟩ stays
      obtain rfl : u = t := Host.Outcome.next.inj (takenU.symm.trans taken)
      exact scanned.frame
  case refine_2 =>
    intro s rl rt lv tv q scans still lawful timer long low high
    have quiet := scans.quietAt still timer long low high
    constructor
    · intro stays
      obtain ⟨t, taken, frame, saved⟩ := exec_bathScan_of_quiet scans.1 lawful (quiet rl) (by
        rw [scans.levelsAfter_eq]
        exact stays.imp_left fun few => by omega)
      rw [scans.scannedBath_eq, scans.levelsAfter_eq, saved scans.2.1, ← scans.2.1] at frame
      exact ⟨t, taken, frame⟩
    · intro few invalid
      obtain ⟨levels, count⟩ := scans.overloaded invalid
      obtain ⟨t, taken, frame, saved⟩ := exec_bathScan_of_quiet scans.1 lawful (quiet _) (.inl (count.symm ▸ few))
      have bath := exec_bathScan_bath scans.1 taken
      rw [← bath, count, saved scans.2.1, ← scans.2.1] at frame
      exact ⟨t, taken, bath ▸ levels, frame⟩
  case refine_3 =>
    intro s rl rt lv tv q scans still timer long low high enough gain due lm g d a bound
    obtain ⟨t, taken, recon, book, records, notices, feed, frame⟩ :=
      exec_bathScan_reconciledTo scans (scans.quietAt still timer long low high rl) enough due
    have gauged : (s.scannedQuiet lv tv).gauged = g := s.scannedQuiet_gauged lv tv
    have diff : ((s.scannedQuiet lv tv).book.mass : Int) - (s.scannedQuiet lv tv).gauged = d := by
      rw [gauged]
      rfl
    have trim : trimOf (s.scannedQuiet lv tv).settings d = a := trimOf_eq s.settings d
    refine ⟨t, taken, ?_, fun invalid => ?_, fun valid within => ?_, fun valid beyond => ?_, feed, frame⟩
    · rw [recon, State.reconAfter, diff, gauged, ← timer]
      rfl
    · obtain ⟨reseeded, opened, none⟩ := State.reconcile_of_invalid (s := s.scannedQuiet lv tv) invalid
      rw [gauged] at reseeded opened
      exact ⟨book.trans reseeded, records.trans opened, by rw [notices, none]; rfl⟩
    · obtain ⟨trimmed, pushed, none⟩ := State.reconcile_of_within (s := s.scannedQuiet lv tv) valid (by rwa [diff])
      rw [diff, trim] at trimmed pushed
      have between := s.book.trim_between gain g (a := a) trim
      have moved : t.book = s.book.trim a := book.trans trimmed
      exact ⟨moved ▸ between, moved ▸ s.book.trim_eq a, records.trans pushed, by rw [notices, none]; rfl⟩
    · obtain ⟨drifting, pushed, told⟩ := State.reconcile_of_beyond (s := s.scannedQuiet lv tv) valid (by rwa [diff])
      rw [diff] at pushed told
      rw [gauged] at pushed
      exact ⟨book.trans drifting, records.trans pushed, by rw [notices, told]; rfl⟩

end Sys2Proof.Machine

namespace Sys2Proof.Machine

/-! ### The job table and the period list (R135, R150) -/

/-- The job slots and the period list, of which the law of chapter 6 speaks. -/
structure JobTable where
  jobs : List JobSlot
  period : List PeriodEntry

/-- The job table of a state with its period list. -/
def State.jobTable (s : State) : JobTable := { jobs := s.jobs, period := s.period }

/-- The slot of an index; a FREE slot where there is none. -/
def JobTable.slot (m : JobTable) (i : Nat) : JobSlot := m.jobs.getD i (JobSlot.vacant .free)

/-- The law of the job table and the period list (R135, R150). -/
def JobTable.lawful (m : JobTable) : Prop :=
  (∀ i j n : Nat, (m.slot i).named n = true → (m.slot j).named n = true → i = j) ∧
    (m.period.map PeriodEntry.slot).Nodup ∧ ∀ e ∈ m.period, 0 < e.black

theorem State.jobsLawful_iff (s : State) : s.jobsLawful ↔ s.jobTable.lawful := Iff.rfl

/-- One change of the job table of a running part: a slot replaced, which holds a job number only if it held it before or no slot
did (R135); the period list credited with a black mass (R150), or shortened (R140, R156). -/
inductive JobMove (m : JobTable) : JobTable → Prop
  | replaced (i : Nat) (j : JobSlot)
      (number : ∀ n, j.named n = true → (m.slot i).named n = true ∨ ∀ k, (m.slot k).named n = false) :
      JobMove m { m with jobs := m.jobs.set i j }
  | credited (i : Nat) (black : Option Int) : JobMove m { m with period := takePeriod m.period i black }
  | shortened {period : List PeriodEntry} (sub : period.Sublist m.period) : JobMove m { m with period := period }

/-- From the job table of one state to that of another by changes of the table alone. -/
def State.jobPath (s t : State) : Prop := Relation.ReflTransGen JobMove s.jobTable t.jobTable

theorem State.jobPath.trans {s t u : State} (h : s.jobPath t) (h' : t.jobPath u) : s.jobPath u :=
  Relation.ReflTransGen.trans h h'

theorem State.jobPath_refl (s : State) : s.jobPath s := Relation.ReflTransGen.refl

/-- A state with the same slots and the same period list has the same job table. -/
theorem State.jobPath_of_kept {s t : State} (h : t.jobs = s.jobs ∧ t.period = s.period) : s.jobPath t := by
  have same : t.jobTable = s.jobTable := by simp [State.jobTable, h]
  rw [State.jobPath, same]

/-! ### Every change of the job table keeps its law -/

/-- A slot of a table in which one slot was replaced is the slot it was, or the one put in. -/
theorem getD_set_cases {α : Type} (xs : List α) (i k : Nat) (x d : α) :
    (xs.set i x).getD k d = xs.getD k d ∨ k = i ∧ (xs.set i x).getD k d = x := by
  simp only [List.getD_eq_getElem?_getD, List.getElem?_set]
  split_ifs with same inside
  · exact .inr ⟨same.symm, rfl⟩
  · subst same
    exact .inl (by simp [inside])
  · exact .inl rfl

/-- A slot replaced leaves every job number to one slot (R135). -/
theorem JobTable.lawful.replaced {m : JobTable} (law : m.lawful) {i : Nat} {j : JobSlot}
    (number : ∀ n, j.named n = true → (m.slot i).named n = true ∨ ∀ k, (m.slot k).named n = false) :
    JobTable.lawful { m with jobs := m.jobs.set i j } := by
  obtain ⟨unique, period⟩ := law
  have held : ∀ k n, (JobTable.slot { m with jobs := m.jobs.set i j } k).named n = true →
      (m.slot k).named n = true ∨ k = i ∧ ∀ k, (m.slot k).named n = false := fun k n named => by
    rcases getD_set_cases m.jobs i k j (JobSlot.vacant .free) with same | ⟨rfl, new⟩
    · exact .inl (by rwa [JobTable.slot, same] at named)
    · rw [JobTable.slot, new] at named
      exact (number n named).imp_right fun none => ⟨rfl, none⟩
  refine ⟨fun a b n namedA namedB => ?_, period⟩
  rcases held a n namedA with oldA | ⟨atA, noneA⟩ <;> rcases held b n namedB with oldB | ⟨atB, noneB⟩
  · exact unique a b n oldA oldB
  · simp [noneB a] at oldA
  · simp [noneA b] at oldB
  · exact atA.trans atB.symm

/-- The period list stays as it is, or takes a black mass above 0 (R150). -/
theorem takePeriod_cases (period : List PeriodEntry) (i : Nat) (black : Option Int) :
    takePeriod period i black = period ∨ ∃ n : Nat, 0 < n ∧ takePeriod period i black = addPeriod period i n := by
  unfold takePeriod
  split
  · rename_i m
    split_ifs with heavy
    · exact .inr ⟨m.toNat, by omega, rfl⟩
    · exact .inl rfl
  · exact .inl rfl

/-- A black mass puts no slot into the period list twice (R150). -/
theorem nodup_addPeriod {period : List PeriodEntry} (nodup : (period.map PeriodEntry.slot).Nodup) (i n : Nat) :
    ((addPeriod period i n).map PeriodEntry.slot).Nodup := by
  unfold addPeriod
  split_ifs with listed
  · have slots : ∀ e : PeriodEntry,
        (if e.slot = i then { e with black := min (e.black + n) Config.maxBlackSum } else e).slot = e.slot :=
      fun e => by split <;> rfl
    simpa [Function.comp_def, slots] using nodup
  · have absent : ∀ e ∈ period, e.slot ≠ i := hasPeriodEntry_eq_false.1 (by simpa using listed)
    simpa [List.nodup_append, nodup] using absent

/-- A black mass above 0 leaves every black sum above 0 (R150). -/
theorem black_pos_addPeriod {period : List PeriodEntry} (pos : ∀ e ∈ period, 0 < e.black) (i : Nat) {n : Nat}
    (heavy : 0 < n) : ∀ e ∈ addPeriod period i n, 0 < e.black := by
  unfold addPeriod
  split_ifs with listed
  · intro e mem
    obtain ⟨old, memOld, rfl⟩ := List.mem_map.1 mem
    have := pos old memOld
    split
    · simp only [Config.maxBlackSum]
      omega
    · exact this
  · intro e mem
    rcases List.mem_append.1 mem with old | new
    · exact pos e old
    · rwa [List.mem_singleton.1 new]

/-- Every change of the job table keeps its law (R135, R150). -/
theorem JobMove.keeps_lawful {m m' : JobTable} (move : JobMove m m') (law : m.lawful) : m'.lawful := by
  cases move with
  | replaced i j number => exact law.replaced number
  | credited i black =>
    rcases takePeriod_cases m.period i black with same | ⟨n, heavy, taken⟩
    · rwa [same]
    · obtain ⟨unique, nodup, pos⟩ := law
      rw [taken]
      exact ⟨unique, nodup_addPeriod nodup i n, black_pos_addPeriod pos i heavy⟩
  | shortened sub =>
    obtain ⟨unique, nodup, pos⟩ := law
    exact ⟨unique, nodup.sublist (sub.map _), fun e mem => pos e (sub.subset mem)⟩

theorem State.jobPath.keeps_lawful {s t : State} (path : s.jobPath t) (law : s.jobsLawful) : t.jobsLawful := by
  rw [State.jobsLawful_iff] at law ⊢
  unfold State.jobPath at path
  generalize t.jobTable = m at path ⊢
  induction path with
  | refl => exact law
  | tail _ move ih => exact move.keeps_lawful ih

end Sys2Proof.Machine

namespace Sys2Proof.Machine

/-! ### Operations that leave the job table and the period list alone -/

section JobFrames

variable (s : State) (c : Crane)

@[simp] theorem State.endEvent_jobTable (new : State) (d : Deadline) :
    (s.endEvent new d).jobs = new.jobs ∧ (s.endEvent new d).period = new.period := by
  rw [State.endEvent_frame]; exact ⟨rfl, rfl⟩

@[simp] theorem State.endRequest_jobTable (new : State) :
    (s.endRequest new).jobs = new.jobs ∧ (s.endRequest new).period = new.period := by
  rw [State.endRequest_frame]; exact ⟨rfl, rfl⟩

@[simp] theorem State.announceAll_jobTable (closed : List Nat) :
    (s.announceAll closed).jobs = s.jobs ∧ (s.announceAll closed).period = s.period := by
  induction closed generalizing s with
  | nil => exact ⟨rfl, rfl⟩
  | cons i rest ih => exact ih (s.announceClosed i)

@[simp] theorem State.teachClass_jobTable (n : Option Nat) (k : Option ClassEntry) (d : Option Nat) :
    (s.teachClass n k d).jobs = s.jobs ∧ (s.teachClass n k d).period = s.period := by
  unfold State.teachClass
  split
  · split
    · split <;> exact ⟨rfl, rfl⟩
    · exact ⟨rfl, rfl⟩
  · exact ⟨rfl, rfl⟩

@[simp] theorem State.bookPickup_jobTable (k : Closing) :
    (s.bookPickup k).jobs = s.jobs ∧ (s.bookPickup k).period = s.period := by
  unfold State.bookPickup
  split <;> simp

@[simp] theorem State.startDrain_jobTable (k : ClassEntry) :
    (s.startDrain c k).jobs = s.jobs ∧ (s.startDrain c k).period = s.period := by
  unfold State.startDrain
  dsimp only
  split <;> simp

@[simp] theorem State.scanBath_jobTable (level temp : Reading) :
    (s.scanBath level temp).jobs = s.jobs ∧ (s.scanBath level temp).period = s.period := by
  have quiet : (s.scanQuiet level temp).jobs = s.jobs ∧ (s.scanQuiet level temp).period = s.period := by
    unfold State.scanQuiet State.judgeQuiet
    split <;> exact ⟨rfl, rfl⟩
  rw [State.scanBath_eq, State.reconcile_frame]
  split <;> simpa using quiet

@[simp] theorem State.tune_jobTable (new : Settings) : (s.tune new).jobs = s.jobs ∧ (s.tune new).period = s.period := by
  rw [State.tune_eq]; exact ⟨rfl, rfl⟩

@[simp] theorem State.fallStop_jobTable : s.fallStop.jobs = s.jobs ∧ s.fallStop.period = s.period := by
  unfold State.fallStop
  split <;> simp

@[simp] theorem State.riseStop_jobTable : s.riseStop.jobs = s.jobs ∧ s.riseStop.period = s.period := by
  unfold State.riseStop
  split <;> exact ⟨rfl, rfl⟩

@[simp] theorem State.expireWithin_jobTable (lead : Nat) :
    (s.expireWithin c lead).jobs = s.jobs ∧ (s.expireWithin c lead).period = s.period := by
  rw [State.expireWithin_frame]; exact ⟨rfl, rfl⟩

@[simp] theorem State.scanHooks_jobTable (rA rB : Reading) :
    (s.scanHooks rA rB).jobs = s.jobs ∧ (s.scanHooks rA rB).period = s.period := by
  rw [State.scanHooks_eq_weighed]; exact ⟨rfl, rfl⟩

@[simp] theorem State.reachAfter_jobTable : (s.reachAfter c).jobs = s.jobs ∧ (s.reachAfter c).period = s.period := by
  unfold State.reachAfter
  dsimp only
  split <;> exact ⟨rfl, rfl⟩

end JobFrames

/-- Jobs announced as CLOSED stay as they are. -/
theorem State.jobPath.announceAll {s t : State} (h : s.jobPath t) (closed : List Nat) : s.jobPath (t.announceAll closed) :=
  h.trans (State.jobPath_of_kept (by simp))

theorem State.jobPath.queueRecord {s t : State} (h : s.jobPath t) (b : RecordBody) : s.jobPath (t.queueRecord b) := h

theorem State.jobPath.notify {s t : State} (h : s.jobPath t) (p : Port) (n : Notice) : s.jobPath (t.notify p n) := h

theorem State.jobPath.notifyEntry {s t : State} (h : s.jobPath t) (c : Crane) (tandem : Bool) (n : Notice) :
    s.jobPath (t.notifyEntry c tandem n) := h.trans (State.jobPath_of_kept (by simp))

theorem State.jobPath.teachClass {s t : State} (h : s.jobPath t) (n : Option Nat) (k : Option ClassEntry) (d : Option Nat) :
    s.jobPath (t.teachClass n k d) := h.trans (State.jobPath_of_kept (by simp))

/-! ### Slots that are replaced -/

/-- The state of a slot is one in which it holds its job number (R135). -/
abbrev JobSlot.holdsNumber (j : JobSlot) : Prop := j.state = .opened ∨ j.state = .closing ∨ j.state = .closed

theorem JobSlot.named_iff {j : JobSlot} {n : Nat} : j.named n = true ↔ j.holdsNumber ∧ j.number = some n := by
  simp [JobSlot.named, JobSlot.holdsNumber, or_assoc]

/-- A slot changed holds no job number that it did not hold (R135). -/
theorem State.modifyJob_jobPath {s : State} {i : Nat} {f : JobSlot → JobSlot}
    (keeps : ∀ n, (f (s.job i)).named n = true → (s.job i).named n = true) : s.jobPath (s.modifyJob i f) := by
  rw [State.modifyJob_eq]
  exact .single (.replaced i _ fun n named => .inl (keeps n named))

/-- A slot whose open dips, totals, counts or flags change holds the job number that it held. -/
theorem State.modifyJob_jobPath_of_same (s : State) (i : Nat) {f : JobSlot → JobSlot}
    (same : ∀ j, (f j).state = j.state ∧ (f j).number = j.number) : s.jobPath (s.modifyJob i f) :=
  State.modifyJob_jobPath fun n named => by
    rw [JobSlot.named_iff, JobSlot.holdsNumber] at named ⊢
    rwa [(same _).1, (same _).2] at named

/-- A slot that holds its job number holds it when it closes (R141). -/
theorem State.closeSlot_jobPath {s : State} {i : Nat} (holds : (s.job i).holdsNumber) : s.jobPath (s.closeSlot i) :=
  State.modifyJob_jobPath fun _ named => JobSlot.named_iff.2 ⟨holds, (JobSlot.named_iff.1 named).2⟩

/-- A slot of a state in which one slot was changed. -/
theorem State.job_modifyJob_cases (s : State) (i k : Nat) (f : JobSlot → JobSlot) :
    (s.modifyJob i f).job k = s.job k ∨ k = i ∧ (s.modifyJob i f).job k = f (s.job i) := by
  rw [State.modifyJob_eq]
  exact getD_set_cases s.jobs i k _ _

/-- Slots that hold their job numbers hold them when they close, one after another (R158). -/
theorem State.closeSlots_jobPath {s : State} {slots : List Nat} (holds : ∀ i ∈ slots, (s.job i).holdsNumber) :
    s.jobPath (slots.foldl State.closeSlot s) := by
  induction slots generalizing s with
  | nil => exact s.jobPath_refl
  | cons i rest ih =>
    refine (State.closeSlot_jobPath (holds i List.mem_cons_self)).trans (ih fun k mem => ?_)
    rcases s.job_modifyJob_cases i k (fun j => { j with state := .closed }) with same | ⟨-, closed⟩
    · exact (congrArg JobSlot.holdsNumber same).mpr (holds k (List.mem_cons_of_mem i mem))
    · exact (congrArg JobSlot.holdsNumber closed).mpr (.inr (.inr rfl))

/-! ### What the rules of the jobs do to the table -/

theorem State.runCloseTest_jobPath (s : State) (i : Nat) : s.jobPath (s.runCloseTest i).1 := by
  unfold State.runCloseTest
  split
  · rename_i passes
    simp only [State.closeTest, Bool.and_eq_true, beq_iff_eq] at passes
    obtain ⟨⟨closing, -⟩, -⟩ := passes
    exact State.closeSlot_jobPath (.inr (.inl closing))
  · exact s.jobPath_refl

theorem State.fallOpenDip_jobPath (s : State) (i : Nat) : s.jobPath (s.fallOpenDip i).1 := by
  refine State.jobPath.trans ?_ (State.runCloseTest_jobPath _ i)
  exact s.modifyJob_jobPath_of_same i fun _ => ⟨rfl, rfl⟩

theorem State.raiseOpenDip_jobPath (s : State) (job : Option JobRef) : s.jobPath (s.raiseOpenDip job) := by
  unfold State.raiseOpenDip
  split
  · exact s.modifyJob_jobPath_of_same _ fun _ => ⟨rfl, rfl⟩
  · exact s.jobPath_refl

theorem State.endDip_jobPath (s : State) (job : Option JobRef) : s.jobPath (s.endDip job) := by
  unfold State.endDip
  split
  · exact (s.fallOpenDip_jobPath _).announceAll _
  · exact s.jobPath_refl

theorem State.dropJob_jobPath (s : State) (job : Option JobRef) : s.jobPath (s.dropJob job).1 := by
  unfold State.dropJob
  split
  · refine State.jobPath.trans ?_ (State.fallOpenDip_jobPath _ _)
    exact s.modifyJob_jobPath_of_same _ fun _ => ⟨rfl, rfl⟩
  · exact s.jobPath_refl

/-- The credit of a dip changes its job's slot and the period list, and may close the slot (R147, R150). -/
theorem State.creditJob_jobPath (s : State) (i : Nat) (black pickup : Option Int) (entry : Nat) :
    s.jobPath (s.creditJob i black pickup entry).1 := by
  have credited : s.jobPath (s.modifyJob i fun j => j.credit black pickup entry) :=
    s.modifyJob_jobPath_of_same i fun j => by simp [JobSlot.credit]
  have listed : s.jobPath { s.modifyJob i fun j => j.credit black pickup entry with
      period := takePeriod s.period i black } := credited.trans (.single (.credited i black))
  exact listed.trans (State.fallOpenDip_jobPath _ i)

theorem State.creditEntry_jobPath (s : State) (x : CraneContext) (k : Closing) : s.jobPath (s.creditEntry x k).1 := by
  unfold State.creditEntry
  split
  · exact s.creditJob_jobPath _ _ _ _
  · exact s.jobPath_refl

theorem State.applyShares_jobPath (s : State) (shares : List (PeriodEntry × Nat)) : s.jobPath (s.applyShares shares) := by
  unfold State.applyShares
  induction shares generalizing s with
  | nil => exact s.jobPath_refl
  | cons p rest ih =>
    refine State.jobPath.trans ?_ (ih (s.modifyJob p.1.slot fun j => j.addShare p.2))
    exact s.modifyJob_jobPath_of_same p.1.slot fun j => by simp [JobSlot.addShare]

/-- An allocation shares a dross zinc out, empties the period list, and closes CLOSING slots (R155 to R158). -/
theorem State.allocate_jobPath (s : State) (zc : Nat) : s.jobPath (s.allocate zc).1 := by
  have close : ∀ t : State, t.jobPath (t.closable.foldl State.closeSlot t) := fun t =>
    State.closeSlots_jobPath fun i mem => by
      simp only [State.closable, List.mem_filter, Bool.and_eq_true, beq_iff_eq] at mem
      obtain ⟨-, closing, -⟩ := mem
      exact .inr (.inl closing)
  unfold State.allocate
  refine State.jobPath.trans ?_ (close _)
  dsimp only
  split
  · exact State.jobPath_of_kept ⟨rfl, rfl⟩
  · exact (s.applyShares_jobPath _).trans (.single (.shortened (List.nil_sublist _)))

/-! ### What the accounting of an entry does to the job table -/

theorem State.accountWork_jobPath (s : State) (c : Crane) (x : CraneContext) (k : Closing) :
    s.jobPath (s.accountWork c x k) := by
  have credited : s.jobPath ((s.bookPickup k).creditEntry x k).1 :=
    (State.jobPath_of_kept (s.bookPickup_jobTable k)).trans (State.creditEntry_jobPath _ x k)
  exact (((credited.teachClass _ _ _).queueRecord _).announceAll _).notifyEntry c _ _

theorem State.accountDross_jobPath (s : State) (c : Crane) (x : CraneContext) (k : Closing) :
    s.jobPath (s.accountDross c x k) := by
  unfold State.accountDross
  dsimp only
  split
  · refine ((((State.jobPath.teachClass ?_ _ _ _).queueRecord _).queueRecord _).announceAll _).notifyEntry c _ _
    exact State.jobPath.trans (State.jobPath_of_kept (by simp)) (State.allocate_jobPath _ _)
  · exact ((s.jobPath_refl.teachClass _ _ _).queueRecord _).notifyEntry c _ _

theorem State.account_jobPath (s : State) (c : Crane) (cause : EndCause) (reported : Option Int) :
    s.jobPath (s.account c cause reported) := by
  unfold State.account
  dsimp only
  split
  · exact State.accountDross_jobPath (s.endWatch c _) c _ _
  · exact State.accountWork_jobPath (s.endWatch c _) c _ _

theorem State.takeTimer_jobPath (s : State) (c : Crane) (t : TimerStep) (reported : Option Int) :
    s.jobPath (s.takeTimer c t reported) := by
  unfold State.takeTimer State.endDrain
  dsimp only
  split
  · split
    · exact State.account_jobPath { s with timers := s.timers.set c t.timer } c _ reported
    · exact State.jobPath_of_kept ⟨rfl, rfl⟩
  · exact State.jobPath_of_kept ⟨rfl, rfl⟩

theorem State.scanWatch_jobPath (s : State) (c : Crane) : s.jobPath (s.scanWatch c) := by
  unfold State.scanWatch State.scanBlanking State.scanAfter
  dsimp only
  split
  · exact s.jobPath_refl
  · split <;> exact State.jobPath_of_kept ⟨rfl, rfl⟩
  · split
    · exact State.takeTimer_jobPath { s with watches := s.watches.set c _ } c _ _
    · exact State.jobPath_of_kept ⟨rfl, rfl⟩

theorem State.loadScan_jobPath (s : State) (rA rB : Reading) (first : Crane) : s.jobPath (s.loadScan rA rB first) := by
  unfold State.loadScan
  refine State.jobPath.trans (State.jobPath_of_kept (s.scanHooks_jobTable rA rB)) ?_
  refine (State.scanWatch_jobPath _ first).trans ?_
  refine State.jobPath.trans (State.jobPath_of_kept (State.endEvent_jobTable s _ .loadScan)) ?_
  exact (State.scanWatch_jobPath _ first.other).trans (State.jobPath_of_kept (by simp))

theorem State.tickTimer_jobPath (s : State) (c : Crane) : s.jobPath (s.tickTimer c) := by
  unfold State.tickTimer
  split
  · exact s.takeTimer_jobPath c _ _
  · exact s.jobPath_refl

theorem State.meetCompare_jobPath (s : State) (c : Crane) : s.jobPath (s.meetCompare c) := by
  unfold State.meetCompare
  dsimp only
  split
  · exact s.takeTimer_jobPath c _ _
  · exact s.jobPath_refl

theorem State.saturateTimer_jobPath (s : State) (c : Crane) : s.jobPath (s.saturateTimer c) := by
  unfold State.saturateTimer
  dsimp only
  split
  · exact s.takeTimer_jobPath c _ _
  · exact s.jobPath_refl

/-! ### What the end of an entry does to the job table -/

/-- The end of a reservation ends the open dip of its job (R15, R18). -/
theorem State.endReservation_jobPath (s : State) (c : Crane) (mark : Option Nat) : s.jobPath (s.endReservation c mark) :=
  State.jobPath.trans (State.jobPath_of_kept (by simp)) (State.endDip_jobPath _ _)

theorem State.dropPiece_jobPath (s : State) (c : Crane) : s.jobPath (s.dropPiece c) := by
  unfold State.dropPiece
  dsimp only
  refine (State.jobPath.queueRecord ?_ _).announceAll _
  exact State.jobPath.trans (State.jobPath_of_kept (by simp)) (State.dropJob_jobPath _ _)

theorem State.lapseEntry_jobPath (s : State) (c : Context) : s.jobPath (s.lapseEntry c) := by
  have crane : ∀ c : Crane, s.jobPath (s.lapseCrane c) := fun c =>
    (s.endReservation_jobPath (s.leadOf c) (s.cranes.get (s.leadOf c)).entry).notifyEntry _ _ _
  unfold State.lapseEntry
  split
  · cases c with
    | craneA => exact crane .craneA
    | craneB => exact crane .craneB
    | feed => exact State.jobPath_of_kept ⟨rfl, rfl⟩
  · exact s.jobPath_refl

theorem State.runOut_jobPath (s : State) (c : Context) : s.jobPath (s.runOut c) := by
  unfold State.runOut
  split
  · exact (s.lapseEntry_jobPath c).trans (State.jobPath_of_kept (by simp))
  · exact s.jobPath_refl

theorem State.runOuts_jobPath (s : State) : s.jobPath s.runOuts :=
  ((s.runOut_jobPath _).trans (State.runOut_jobPath _ _)).trans (State.runOut_jobPath _ _)

end Sys2Proof.Machine

namespace Sys2Proof.Machine

/-! ### What the owning rules do to the job table -/

/-- What a rule makes of the job table: a refusal or a read leaves it. -/
def Reply.jobPath (s : State) : Reply → Prop
  | .done _ new => s.jobPath new
  | .refused _ | .told _ => True

/-- A rule whose new state has the slots and the period list of the old one. -/
theorem Reply.jobPath_done_of_kept {s new : State} {ans : List Byte} (h : new.jobs = s.jobs ∧ new.period = s.period) :
    (Reply.done ans new).jobPath s := State.jobPath_of_kept h

/-- An admission raises the open-dip count of its job (R9). -/
theorem State.admitCrane_jobPath (s : State) (c : Crane) (a : ReserveArgs) : s.jobPath (s.admitCrane c a) := by
  unfold State.admitCrane
  dsimp only
  split
  · refine State.jobPath.notify (State.jobPath.trans ?_ (State.raiseOpenDip_jobPath _ _)) _ _
    exact State.jobPath_of_kept ⟨rfl, rfl⟩
  · refine State.jobPath.trans ?_ (State.raiseOpenDip_jobPath _ _)
    exact State.jobPath_of_kept ⟨rfl, rfl⟩

theorem reserveRule_jobPath (c : Crane) (body : List Byte) (s : State) : (reserveRule c body s).jobPath s := by
  unfold reserveRule
  dsimp only
  split
  · trivial
  · exact s.admitCrane_jobPath c _

theorem releaseRule_jobPath (c : Crane) (s : State) : (releaseRule c s).jobPath s := by
  unfold releaseRule
  dsimp only
  split
  · split
    · trivial
    · exact s.endReservation_jobPath c none
  all_goals trivial

theorem leaveRule_jobPath (c : Crane) (s : State) : (leaveRule c s).jobPath s := by
  unfold leaveRule
  dsimp only
  split
  · trivial
  · split
    · exact State.jobPath_of_kept (by simp [State.endEntry])
    · exact (s.account_jobPath c .earlyLeave none).trans (State.jobPath_of_kept (by simp [State.endEntry]))

theorem droppedRule_jobPath (c : Crane) (s : State) : (droppedRule c s).jobPath s := by
  unfold droppedRule
  split
  · trivial
  · exact s.dropPiece_jobPath c

/-- A number that may name a slot and names none is held by no slot (R135). -/
theorem State.not_named_of_slotOf_none {s : State} {n : Nat} (ok : jobNumberOk n = true) (none : s.slotOf n = none) (k : Nat) :
    (s.job k).named n = false := by
  rw [State.slotOf, if_pos ok, List.findIdx?_eq_none_iff] at none
  unfold State.job
  rw [List.getD_eq_getElem?_getD]
  cases slot : s.jobs[k]? with
  | none => rfl
  | some j => exact none j (List.mem_of_getElem? slot)

/-- The slot that a number names holds the number (R135). -/
theorem State.named_of_slotOf {s : State} {n i : Nat} (slot : s.slotOf n = some i) :
    i < s.jobs.length ∧ (s.job i).named n = true := by
  unfold State.slotOf at slot
  split at slot
  · obtain ⟨inside, named, -⟩ := List.findIdx?_eq_some_iff_getElem.1 slot
    exact ⟨inside, by simpa [State.job, inside] using named⟩
  · cases slot

/-- OPEN JOB gives a slot a number that no slot holds (R137). -/
theorem openJobRule_jobPath (body : List Byte) (s : State) : (openJobRule body s).jobPath s := by
  unfold openJobRule
  dsimp only
  split_ifs with bad duplicate
  · trivial
  · trivial
  · split
    · trivial
    · rename_i i _
      simp only [Bool.or_eq_true, Bool.not_eq_true', not_or, Bool.not_eq_false] at bad
      simp only [Option.isSome_iff_ne_none, ne_eq, not_not] at duplicate
      unfold Reply.jobPath
      rw [State.modifyJob_eq]
      refine .single (.replaced i _ fun n named => .inr fun k => ?_)
      obtain rfl : (JobArgs.read body).job = n := Option.some.inj (JobSlot.named_iff.1 named).2
      exact State.not_named_of_slotOf_none bad.1 duplicate k

/-- CLOSE JOB in WAIT mode leaves the slot's job number, and may close it (R139). -/
theorem closeJobWait_jobPath (i : Nat) (s : State) : (closeJobWait i s).jobPath s := by
  have closing : s.jobPath (s.modifyJob i fun j => if j.state = .opened then { j with state := .closing } else j) :=
    State.modifyJob_jobPath fun n named => by
      split at named
      · rename_i opened
        exact JobSlot.named_iff.2 ⟨.inl opened, (JobSlot.named_iff.1 named).2⟩
      · exact named
  exact (closing.trans (State.runCloseTest_jobPath _ i)).announceAll _

/-- CLOSE JOB in NOW mode shortens the period list and closes a slot that holds its job number (R140). -/
theorem closeJobNow_jobPath {i : Nat} {s : State} (holds : (s.job i).holdsNumber) : (closeJobNow i s).jobPath s := by
  have shortened : s.jobPath { s with period := s.period.filter fun e => e.slot != i } :=
    .single (.shortened List.filter_sublist)
  have marked : s.jobPath ({ s with period := s.period.filter fun e => e.slot != i }.modifyJob i fun j =>
      { j with drossUnallocated := j.drossUnallocated || hasPeriodEntry s.period i }) :=
    shortened.trans (State.modifyJob_jobPath_of_same _ i fun _ => ⟨rfl, rfl⟩)
  refine (marked.trans (State.closeSlot_jobPath ?_)).announceAll [i]
  rcases State.job_modifyJob_cases { s with period := s.period.filter fun e => e.slot != i } i i (fun j =>
    { j with drossUnallocated := j.drossUnallocated || hasPeriodEntry s.period i }) with same | ⟨-, same⟩ <;>
  · rw [same]
    exact holds

theorem closeJobRule_jobPath (body : List Byte) (s : State) : (closeJobRule body s).jobPath s := by
  unfold closeJobRule
  dsimp only
  split
  · trivial
  · split
    · trivial
    · rename_i i slot
      have holds : (s.job i).holdsNumber := (JobSlot.named_iff.1 (State.named_of_slotOf slot).2).1
      split_ifs
      · trivial
      · trivial
      · exact closeJobWait_jobPath i s
      · exact closeJobNow_jobPath holds

/-- REMOVE JOB leaves a slot that holds no job number (R142). -/
theorem removeJobRule_jobPath (body : List Byte) (s : State) : (removeJobRule body s).jobPath s := by
  unfold removeJobRule
  dsimp only
  split_ifs
  · trivial
  · exact State.modifyJob_jobPath fun n named => by simp [JobSlot.named, JobSlot.vacant] at named
  · trivial

/-- A rule of a crane's request does to the job table what it does for each crane. -/
theorem byCrane_jobPath {p : Port} {rule : Crane → Reply} {s : State} (h : ∀ c, (rule c).jobPath s) :
    (byCrane p rule).jobPath s := by
  unfold byCrane
  split
  · exact h _
  · trivial

/-- The requests whose owning rules change the job table or the period list. -/
def jobRequests : List Request := [.reserve, .release, .leave, .dropped, .openJob, .closeJob, .removeJob]

/-- Every other owning rule leaves the job table and the period list. -/
theorem ownRule_jobPath_of_kept (r : Request) (p : Port) (body : List Byte) (s : State) (h : r ∉ jobRequests) :
    (ownRule r p body s).jobPath s := by
  cases r with
  | status | readBook | readLanes => trivial
  | join | lower | submerged | withdraw | clear | turned | readHook | zeroHook =>
    refine byCrane_jobPath fun c => ?_
    simp only [joinRule, lowerRule, submergedRule, withdrawRule, clearRule, turnedRule, readHookRule, zeroHookRule]
    repeat' split
    all_goals first | trivial | exact Reply.jobPath_done_of_kept (by simp)
  | takeNotice | charge | chargeIn | chargeAbort | skim | setupKettle | tuneKettle | setClass | readClass | setHook | readJob
  | takeRecords | rebase | openBook | resume | hold | clearFoul | reconcileNow =>
    simp only [ownRule, takeNoticeRule, chargeRule, chargeInRule, chargeAbortRule, skimRule, setupKettleRule, tuneKettleRule,
      setClassRule, readClassRule, setHookRule, readJobRule, takeRecordsRule, rebaseRule, openBookRule, resumeRule, holdRule,
      clearFoulRule, reconcileNowRule]
    repeat' split
    all_goals first | trivial | exact Reply.jobPath_done_of_kept (by simp [State.endFeed])
  | reserve | release | leave | dropped | openJob | closeJob | removeJob => simp [jobRequests] at h

/-- Every owning rule changes the job table by its own changes alone. -/
theorem ownRule_jobPath (r : Request) (p : Port) (body : List Byte) (s : State) : (ownRule r p body s).jobPath s := by
  cases r with
  | reserve => exact byCrane_jobPath fun c => reserveRule_jobPath c body s
  | release => exact byCrane_jobPath fun c => releaseRule_jobPath c s
  | leave => exact byCrane_jobPath fun c => leaveRule_jobPath c s
  | dropped => exact byCrane_jobPath fun c => droppedRule_jobPath c s
  | openJob => exact openJobRule_jobPath body s
  | closeJob => exact closeJobRule_jobPath body s
  | removeJob => exact removeJobRule_jobPath body s
  | _ => exact ownRule_jobPath_of_kept _ p body s (by simp [jobRequests])

/-! ### What a running part's commands do to the job table -/

theorem State.serve_jobPath (s : State) (p : Port) (r : Request) (body : List Byte) : s.jobPath (s.serve p r body) := by
  have own := ownRule_jobPath r p body s
  rcases s.serve_cases p r body with ⟨st, -, h⟩ | ⟨ans, -, h⟩ | ⟨ans, new, ho, h⟩
  · rw [h]; exact State.jobPath_of_kept ⟨rfl, rfl⟩
  · rw [h]; exact State.jobPath_of_kept ⟨rfl, rfl⟩
  · rw [ho] at own
    rw [h]; exact State.jobPath.trans own (State.jobPath_of_kept (by simp))

theorem State.settle_jobPath (s : State) (p : Port) : s.jobPath (s.settle p) := by
  unfold State.settle
  split
  · exact s.serve_jobPath p _ _
  · exact s.jobPath_refl

theorem State.judge_jobPath (s : State) (p : Port) (rx : ReceiveBuffer) (check : Byte) :
    s.jobPath (s.judge p rx check) := by
  rcases State.judge_cases (s := s) (p := p) (rx := rx) (check := check) with ⟨st, h⟩ | ⟨r, -, -, -, h⟩
  · rw [h]; exact State.jobPath_of_kept ⟨rfl, rfl⟩
  · rw [h]; exact s.serve_jobPath p r _

/-- The end of a transfer leaves the job table. -/
theorem State.jobPath.endTransfer {s t : State} (h : s.jobPath t) (p : Port) : s.jobPath (t.endTransfer p) := h

theorem State.writeTransfer_jobPath (s : State) (p : Port) (addr : LinkAddress) (code : Byte) (body : List Byte)
    (check : Byte) : s.jobPath (s.writeTransfer p addr code body check) := by
  unfold State.writeTransfer
  split
  · exact ((s.settle_jobPath p).trans (State.judge_jobPath _ p _ check)).endTransfer p
  · exact s.jobPath_refl

theorem State.readFrom_jobPath (s : State) (p : Port) (clocked : Nat) : s.jobPath (s.readFrom p clocked) :=
  ((s.settle_jobPath p).trans (State.jobPath_of_kept ⟨rfl, rfl⟩)).endTransfer p

theorem State.dropWrite_jobPath (s : State) (p : Port) : s.jobPath (s.dropWrite p) := (s.settle_jobPath p).endTransfer p

/-- An event's step changes the job table as its own meaning does. -/
theorem State.whileRunning_jobPath {s : State} {act : State → State} (h : ∀ t : State, t.jobPath (act t)) :
    s.jobPath (s.whileRunning act) := by
  unfold State.whileRunning
  split
  · exact h s
  · exact s.jobPath_refl

/-- The end of an event's step leaves the job table. -/
theorem State.jobPath.endEvent {s t : State} (h : s.jobPath t) (old : State) (d : Deadline) : s.jobPath (old.endEvent t d) :=
  h.trans (State.jobPath_of_kept (by simp))

/-- A flush makes the changes of the PENDING requests (R193). -/
theorem State.flushPart_jobPath (s : State) : s.jobPath s.flushPart := by
  have settled : s.jobPath s.settleAll.1 :=
    (((s.settle_jobPath .craneA).trans (State.settle_jobPath _ .craneB)).trans (State.settle_jobPath _ .feed)).trans
      (State.settle_jobPath _ .office)
  unfold State.flushPart
  split
  · exact settled.trans (State.jobPath_of_kept ⟨rfl, rfl⟩)
  · exact s.jobPath_refl

/-- A part that runs does not restart (R194). -/
theorem State.tryRestart_of_running {s : State} (run : s.phase = .running) (upsets : List Upset) (cut : Option RestartCut) :
    s.tryRestart upsets cut = s := if_neg (by simp [State.mayRestart, run])

/-- Whatever command a running part takes, its job table changes by the table's own changes alone. -/
theorem exec_jobPath {i : Instr} {s t : State} (run : s.phase = .running) (h : exec i s = .next t) : s.jobPath t := by
  cases i <;> cases h
  case unknownRequest => exact s.writeTransfer_jobPath _ _ _ _ _
  case readTransfer =>
    split
    · exact s.readFrom_jobPath _ _
    · exact s.jobPath_refl
  case shortWrite =>
    split
    · exact s.dropWrite_jobPath _
    · exact s.jobPath_refl
  case linkLowTimeout p during =>
    rw [if_pos run]
    cases during with
    | idle => exact s.jobPath_refl
    | writing bytes => exact s.dropWrite_jobPath p
    | reading clocked => exact s.readFrom_jobPath p clocked
  case lapseExpiry c =>
    exact State.whileRunning_jobPath fun t => (State.lapseEntry_jobPath (t.writeDue .lapse) c).endEvent _ _
  case loadScan rA rB first =>
    exact State.whileRunning_jobPath fun t =>
      (State.runOuts_jobPath (t.writeDue .loadScan)).trans (State.loadScan_jobPath _ rA rB first)
  case immersionLimitExpiry c =>
    exact State.whileRunning_jobPath fun t => (State.jobPath_of_kept (t.expireWithin_jobTable c 1)).endEvent _ _
  case drainTimerTick c => exact State.whileRunning_jobPath fun t => (t.tickTimer_jobPath c).endEvent _ _
  case timedCompareMet c => exact State.whileRunning_jobPath fun t => (t.meetCompare_jobPath c).endEvent _ _
  case drainSaturation c => exact State.whileRunning_jobPath fun t => (t.saturateTimer_jobPath c).endEvent _ _
  case blankingEnd c =>
    exact State.whileRunning_jobPath fun t => (State.jobPath_of_kept (t.reachAfter_jobTable c)).endEvent _ _
  case bathScan rl rt us =>
    exact State.whileRunning_jobPath fun t => (State.jobPath_of_kept (by simp [State.scrub])).endEvent _ _
  case stopFall | stopRise =>
    refine State.jobPath.trans ?_ (State.whileRunning_jobPath fun t => (State.jobPath_of_kept (by simp)).endEvent _ _)
    exact State.jobPath_of_kept ⟨rfl, rfl⟩
  case supplyFailFall | resetAssert =>
    refine State.jobPath.trans ?_ (State.flushPart_jobPath _)
    exact State.jobPath_of_kept ⟨rfl, rfl⟩
  case resetRelease | supplyFailRise =>
    rw [State.tryRestart_of_running (by exact run)]
    exact State.jobPath_of_kept ⟨rfl, rfl⟩
  case powerOn =>
    rw [if_pos run]
    exact s.jobPath_refl
  case supplyCollapse tears =>
    rw [State.collapse_frame]
    exact s.flushPart_jobPath.trans (State.jobPath_of_kept ⟨rfl, rfl⟩)
  all_goals exact s.writeTransfer_jobPath _ _ _ _ _

/-- Settles O14: a running part's command changes the job table by its own changes alone, and each of them keeps the law. -/
theorem jobs_and_period_keep_their_form : Obligations.Jobs_and_period_keep_their_form :=
  fun _ _ _ run law h => (exec_jobPath run h).keeps_lawful law

end Sys2Proof.Machine

namespace Sys2Proof.Machine

/-! ### The shares of a dross zinc (R155) -/

/-- The floors of the parts of `z` by weights that sum to `b` fall short of `z` by less than their number. -/
theorem sum_floors_between {weights : List Nat} {b : Nat} (pos : 0 < b) (z : Nat) :
    b * (weights.map fun w => z * w / b).sum ≤ z * weights.sum ∧
      z * weights.sum + weights.length ≤ b * (weights.map fun w => z * w / b).sum + b * weights.length := by
  induction weights with
  | nil => simp
  | cons w rest ih =>
    obtain ⟨low, high⟩ := ih
    have part : z * w = b * (z * w / b) + z * w % b := (Nat.div_add_mod _ _).symm
    have rem : z * w % b < b := Nat.mod_lt _ pos
    simp only [List.map_cons, List.sum_cons, List.length_cons, mul_add, mul_one]
    omega

/-- One unit more for each of the first `r` entries of a list adds `r` to its sum. -/
theorem sum_raised (xs : List Nat) (r k : Nat) :
    ((xs.zipIdx k).map fun p => if p.2 < r then p.1 + 1 else p.1).sum = xs.sum + min (r - k) xs.length := by
  induction xs generalizing k with
  | nil => simp
  | cons x rest ih =>
    simp only [List.zipIdx_cons, List.map_cons, List.sum_cons, List.length_cons, ih]
    split_ifs <;> omega

/-- Black masses of which one is above 0 do not sum to 0. -/
theorem sum_black_pos {period : List PeriodEntry} (heavy : ∃ e ∈ period, 0 < e.black) :
    0 < (period.map PeriodEntry.black).sum := by
  obtain ⟨e, mem, pos⟩ := heavy
  exact pos.trans_le (List.single_le_sum (fun _ _ => Nat.zero_le _) _ (List.mem_map_of_mem mem))

/-- The floor shares sum to the dross zinc at most, and fall short of it by less than the number of entries (R155). -/
theorem sum_floorShares {period : List PeriodEntry} (heavy : ∃ e ∈ period, 0 < e.black) (zc : Nat) :
    (floorShares zc period).sum ≤ zc ∧ zc - (floorShares zc period).sum < period.length := by
  have pos := sum_black_pos heavy
  have floors : floorShares zc period =
      (period.map PeriodEntry.black).map fun w => zc * w / (period.map PeriodEntry.black).sum := by simp [floorShares]
  have between := sum_floors_between (weights := period.map PeriodEntry.black) pos zc
  rw [← floors, List.length_map] at between
  obtain ⟨low, high⟩ := between
  obtain ⟨e, mem, -⟩ := heavy
  have some : 0 < period.length := List.length_pos_of_mem mem
  generalize (period.map PeriodEntry.black).sum = b at *
  rw [mul_comm zc b] at low high
  have within : (floorShares zc period).sum ≤ zc := Nat.le_of_mul_le_mul_left low pos
  have near : zc < (floorShares zc period).sum + period.length := Nat.lt_of_mul_lt_mul_left (a := b) (by rw [mul_add]; omega)
  exact ⟨within, by omega⟩

/-- The shares depend on the black masses alone (R155). -/
theorem sharesOf_congr {period other : List PeriodEntry} (same : other.map PeriodEntry.black = period.map PeriodEntry.black)
    (zc : Nat) : sharesOf zc other = sharesOf zc period := by
  have count : other.length = period.length := by simpa using congrArg List.length same
  have floors : floorShares zc other = floorShares zc period := by
    have parts := congrArg (List.map fun w => zc * w / (period.map PeriodEntry.black).sum) same
    rw [List.map_map, List.map_map] at parts
    unfold floorShares
    rw [same]
    exact parts
  unfold sharesOf
  rw [same, count, floors]

/-- Settles O53: the floors fall short of the dross zinc by less than a unit for each entry, and the first entries take these. -/
theorem shares_sum_exactly_to_the_dross_zinc : Obligations.Shares_sum_exactly_to_the_dross_zinc := by
  intro zc period heavy b floors r
  obtain ⟨within, few⟩ : floors.sum ≤ zc ∧ r < period.length := sum_floorShares heavy zc
  have shares := sharesOf_of_sum (sum_black_pos heavy).ne' zc
  refine ⟨within, few, ?_, length_sharesOf zc period, fun k e entry => ?_, fun other same => sharesOf_congr same zc⟩
  · have count : (floorShares zc period).length = period.length := by simp [floorShares]
    rw [shares, sum_raised, count]
    show floors.sum + min (r - 0) period.length = zc
    omega
  · have floor : (floorShares zc period)[k]? = some (zc * e.black / b) := by simp [floorShares, entry, b]
    rw [shares, List.getElem?_map, List.getElem?_zipIdx, floor]
    show some (if 0 + k < r then zc * e.black / b + 1 else zc * e.black / b) = _
    rw [Nat.zero_add]
    split <;> rfl

end Sys2Proof.Machine

namespace Sys2Proof.Machine

/-! ### OPEN JOB (R137) -/

/-- The lowest FREE slot is the first that OPEN JOB finds (R137). -/
theorem State.findIdx?_free {s : State} {i : Nat} (inside : i < s.jobs.length) (free : (s.job i).state = .free)
    (lowest : ∀ k, k < i → (s.job k).state ≠ .free) : (s.jobs.findIdx? fun j => j.state == .free) = some i := by
  refine List.findIdx?_eq_some_iff_getElem.2 ⟨inside, ?_, fun k below => ?_⟩
  · simpa [State.job, inside] using free
  · simpa [State.job, below.trans inside] using lowest k below

theorem openJobRule_badValue {body : List Byte} (s : State)
    (bad : (JobArgs.read body).job = 0 ∨ 999999 < (JobArgs.read body).job ∨ 15 < (JobArgs.read body).other) :
    openJobRule body s = .refused .badValue := by
  unfold openJobRule
  refine if_pos ?_
  simp only [jobNumberOk, Bool.or_eq_true, Bool.not_eq_true', Bool.and_eq_false_iff, decide_eq_true_eq, decide_eq_false_iff_not]
  omega

section OpenJob

variable {body : List Byte} {s : State} (ok : jobNumberOk (JobArgs.read body).job = true)
  (cls : (JobArgs.read body).other ≤ 15)

include ok cls

theorem openJobRule_duplicate {i : Nat} (slot : s.slotOf (JobArgs.read body).job = some i) :
    openJobRule body s = .refused .duplicate := by
  simp [openJobRule, ok, cls, slot]

theorem openJobRule_tableFull (new : s.slotOf (JobArgs.read body).job = none) (full : ∀ j ∈ s.jobs, j.state ≠ .free) :
    openJobRule body s = .refused .tableFull := by
  have none : (s.jobs.findIdx? fun j => j.state == .free) = none :=
    List.findIdx?_eq_none_iff.2 fun j mem => by simpa using full j mem
  simp [openJobRule, ok, cls, new, none]

theorem openJobRule_opens {i : Nat} (new : s.slotOf (JobArgs.read body).job = none) (inside : i < s.jobs.length)
    (free : (s.job i).state = .free) (lowest : ∀ k, k < i → (s.job k).state ≠ .free) :
    openJobRule body s = .done (u8 i)
      { s with
        jobs := s.jobs.modify i fun _ =>
          { JobSlot.vacant .opened with
            number := some (JobArgs.read body).job, defaultClass := some (JobArgs.read body).other } } := by
  simp [openJobRule, ok, cls, new, State.findIdx?_free inside free lowest, State.modifyJob]

end OpenJob

/-! ### CLOSE JOB (R138 to R141, R144) -/

/-- A slot `j` of job number `n` closed at the index `i`, announced by a record and a notice (R141). -/
def State.jobClosed (s : State) (i n : Nat) (j : JobSlot) : State :=
  { s with
    jobs := s.jobs.set i { j with state := .closed }
    records := s.records.push (.jobClosed (j.closedRecord i))
    notices := s.notices.set .office ((s.notices.get .office).push (.jobClosed n)) }

/-- A slot that a request has made of the one at its index, closed and announced. -/
theorem State.closeSlot_announced {s : State} {i n : Nat} {j : JobSlot} (inside : i < s.jobs.length)
    (number : j.number = some n) :
    (({ s with jobs := s.jobs.set i j } : State).closeSlot i).announceAll [i] = s.jobClosed i n j := by
  unfold State.closeSlot
  rw [State.modifyJob_eq, State.job_of_set inside]
  simp [State.announceAll, State.announceClosed, State.queueRecord, State.notify, State.job, inside, JobSlot.closedRecord,
    number, numberOr0, State.jobClosed]

theorem State.closeSlot_state {s : State} {i : Nat} (inside : i < s.jobs.length) : ((s.closeSlot i).job i).state = .closed := by
  rw [State.closeSlot, State.modifyJob_eq, State.job_of_set inside]

section CloseJob

variable {s : State} {i n : Nat}

/-- CLOSE JOB in WAIT mode first makes an OPEN slot CLOSING (R139). -/
theorem State.modifyJob_closing (state : (s.job i).state = .opened ∨ (s.job i).state = .closing) :
    (s.modifyJob i fun j => if j.state = .opened then { j with state := .closing } else j) =
      { s with jobs := s.jobs.set i { s.job i with state := .closing } } := by
  rw [State.modifyJob_eq]
  split_ifs with opened
  · rfl
  · have closing := state.resolve_left opened
    rw [← closing]

/-- The close test of a slot made CLOSING (R144). -/
theorem State.closeTest_of_closing (inside : i < s.jobs.length) :
    ({ s with jobs := s.jobs.set i { s.job i with state := .closing } } : State).closeTest i = true ↔
      (s.job i).openDips = 0 ∧ ∀ e ∈ s.period, e.slot ≠ i := by
  simp [State.closeTest, State.job_of_set inside, hasPeriodEntry_eq_false]

theorem closeJobWait_closes (inside : i < s.jobs.length) (number : (s.job i).number = some n)
    (state : (s.job i).state = .opened ∨ (s.job i).state = .closing) (dips : (s.job i).openDips = 0)
    (unlisted : ∀ e ∈ s.period, e.slot ≠ i) : closeJobWait i s = .done [4] (s.jobClosed i n (s.job i)) := by
  have passes := (State.closeTest_of_closing inside).2 ⟨dips, unlisted⟩
  have announced := State.closeSlot_announced (s := s) (j := { s.job i with state := .closing }) inside number
  unfold closeJobWait State.runCloseTest
  dsimp only
  rw [State.modifyJob_closing state, if_pos passes, announced, State.closeSlot_state (by simpa using inside)]
  rfl

theorem closeJobWait_waits (inside : i < s.jobs.length) (state : (s.job i).state = .opened ∨ (s.job i).state = .closing)
    (held : 0 < (s.job i).openDips ∨ ∃ e ∈ s.period, e.slot = i) :
    closeJobWait i s = .done [3] { s with jobs := s.jobs.set i { s.job i with state := .closing } } := by
  have fails := mt (State.closeTest_of_closing inside).1 (by
    rintro ⟨dips, unlisted⟩
    rcases held with some | ⟨e, mem, slot⟩
    · omega
    · exact unlisted e mem slot)
  unfold closeJobWait State.runCloseTest
  dsimp only
  rw [State.modifyJob_closing state, if_neg fails, State.job_of_set inside]
  rfl

/-- CLOSE JOB in NOW mode: what it makes of the slot it closes and of the period list (R140). -/
theorem closeJobNow_eq (inside : i < s.jobs.length) (number : (s.job i).number = some n) :
    closeJobNow i s = .done ([4] ++ yesNo (hasPeriodEntry s.period i))
      (({ s with period := s.period.filter fun e => e.slot != i } : State).jobClosed i n
        { s.job i with drossUnallocated := (s.job i).drossUnallocated || hasPeriodEntry s.period i }) := by
  unfold closeJobNow
  dsimp only
  rw [State.modifyJob_eq, State.closeSlot_announced (n := n) (by exact inside) (by exact number)]
  rfl

theorem closeJobNow_listed (inside : i < s.jobs.length) (number : (s.job i).number = some n)
    (listed : ∃ e ∈ s.period, e.slot = i) :
    closeJobNow i s = .done [4, 1]
      (({ s with period := s.period.filter fun e => e.slot != i } : State).jobClosed i n
        { s.job i with drossUnallocated := true }) := by
  have had : hasPeriodEntry s.period i = true := by simpa [hasPeriodEntry] using listed
  rw [closeJobNow_eq inside number, had, Bool.or_true]
  rfl

theorem closeJobNow_unlisted (inside : i < s.jobs.length) (number : (s.job i).number = some n)
    (unlisted : ∀ e ∈ s.period, e.slot ≠ i) : closeJobNow i s = .done [4, 0] (s.jobClosed i n (s.job i)) := by
  have had : hasPeriodEntry s.period i = false := hasPeriodEntry_eq_false.2 unlisted
  have same : (s.period.filter fun e => e.slot != i) = s.period := by simpa using unlisted
  rw [closeJobNow_eq inside number, had, same, Bool.or_false]
  rfl

end CloseJob

/-- The mode and the number of a CLOSE JOB lie in their ranges (R138). -/
abbrev JobArgs.closes (a : JobArgs) : Prop := (a.other = 1 ∨ a.other = 2) ∧ 1 ≤ a.job ∧ a.job ≤ 999999

theorem JobArgs.closes_iff {a : JobArgs} :
    ((a.other != 1 && a.other != 2) || !jobNumberOk a.job) = false ↔ a.closes := by
  simp only [JobArgs.closes, ← jobNumberOk_iff, Bool.or_eq_false_iff, Bool.and_eq_false_iff, bne_eq_false_iff_eq,
    Bool.not_eq_false']

theorem closeJobRule_badValue {body : List Byte} (s : State) (bad : ¬(JobArgs.read body).closes) :
    closeJobRule body s = .refused .badValue := by
  rw [← JobArgs.closes_iff, Bool.not_eq_false] at bad
  exact if_pos bad

theorem closeJobRule_noJob {body : List Byte} {s : State} (fields : (JobArgs.read body).closes)
    (unnamed : s.slotOf (JobArgs.read body).job = none) : closeJobRule body s = .refused .noJob := by
  rw [← JobArgs.closes_iff] at fields
  simp [closeJobRule, fields, unnamed]

/-- CLOSE JOB of a number that names a slot (R138). -/
theorem closeJobRule_slot {body : List Byte} {s : State} {i : Nat} (fields : (JobArgs.read body).closes)
    (slot : s.slotOf (JobArgs.read body).job = some i) :
    closeJobRule body s =
      if (s.job i).state = .closed then .refused .wrongState
      else if (JobArgs.read body).other = 2 ∧ 0 < (s.job i).openDips then .refused .dipsOpen
      else if (JobArgs.read body).other = 1 then closeJobWait i s
      else closeJobNow i s := by
  rw [← JobArgs.closes_iff] at fields
  simp only [closeJobRule, fields, slot, Bool.false_eq_true, if_false]

section CloseOpenJob

variable {body : List Byte} {s : State} {i : Nat} (fields : (JobArgs.read body).closes)
  (slot : s.slotOf (JobArgs.read body).job = some i) (live : (s.job i).state ≠ .closed)

include fields slot live

theorem closeJobRule_wait (wait : (JobArgs.read body).other = 1) : closeJobRule body s = closeJobWait i s := by
  rw [closeJobRule_slot fields slot, if_neg live, if_neg (by omega), if_pos wait]

theorem closeJobRule_now (now : (JobArgs.read body).other = 2) (dips : (s.job i).openDips = 0) :
    closeJobRule body s = closeJobNow i s := by
  rw [closeJobRule_slot fields slot, if_neg live, if_neg (by omega), if_neg (by omega)]

theorem closeJobRule_dipsOpen (now : (JobArgs.read body).other = 2) (dips : 0 < (s.job i).openDips) :
    closeJobRule body s = .refused .dipsOpen := by
  rw [closeJobRule_slot fields slot, if_neg live, if_pos ⟨now, dips⟩]

end CloseOpenJob

/-! ### REMOVE JOB (R142) -/

theorem removeJobRule_badValue {b : Byte} (s : State) (beyond : 63 < b.toNat) : removeJobRule [b] s = .refused .badValue := by
  simp [removeJobRule, Config.jobCount, Nat.succ_le_of_lt beyond]

theorem removeJobRule_frees {b : Byte} {s : State} (inside : b.toNat ≤ 63)
    (ended : (s.job b.toNat).state = .closed ∨ (s.job b.toNat).state = .damaged) :
    removeJobRule [b] s = .done [] { s with jobs := s.jobs.set b.toNat (JobSlot.vacant .free) } := by
  simp [removeJobRule, Config.jobCount, Nat.lt_succ_of_le inside, ended, State.modifyJob_eq]

theorem removeJobRule_wrongState {b : Byte} {s : State} (inside : b.toNat ≤ 63) (notClosed : (s.job b.toNat).state ≠ .closed)
    (notDamaged : (s.job b.toNat).state ≠ .damaged) : removeJobRule [b] s = .refused .wrongState := by
  simp [removeJobRule, Config.jobCount, Nat.lt_succ_of_le inside, notClosed, notDamaged]

/-- Settles O54: each of the three rules is read branch by branch. -/
theorem job_requests_open_close_and_remove : Obligations.Job_requests_open_close_and_remove := by
  intro s takes
  refine ⟨fun body len => ?openJob, fun body len => ?refusals, fun body i len => ?closes, fun b => ?removeJob⟩
  case openJob =>
    have lenOk : Request.openJob.lengthOk body.length = true := by simp [Request.lengthOk, len]
    refine ⟨fun bad => exec_refused rfl takes rfl lenOk (openJobRule_badValue s bad), fun low high cls => ?_⟩
    have ok := jobNumberOk_iff.2 ⟨low, high⟩
    exact ⟨fun i slot => exec_refused rfl takes rfl lenOk (openJobRule_duplicate ok cls slot),
      fun new full => exec_refused rfl takes rfl lenOk (openJobRule_tableFull ok cls new full),
      fun i new inside free lowest => exec_done rfl takes rfl lenOk (openJobRule_opens ok cls new inside free lowest)⟩
  case refusals =>
    have lenOk : Request.closeJob.lengthOk body.length = true := by simp [Request.lengthOk, len]
    exact ⟨fun bad => exec_refused rfl takes rfl lenOk (closeJobRule_badValue s bad),
      fun fields unnamed => exec_refused rfl takes rfl lenOk (closeJobRule_noJob fields unnamed),
      fun i fields slot closed =>
        exec_refused rfl takes rfl lenOk ((closeJobRule_slot fields slot).trans (if_pos closed))⟩
  case closes =>
    have lenOk : Request.closeJob.lengthOk body.length = true := by simp [Request.lengthOk, len]
    intro a closed low high slot number state
    have inside : i < s.jobs.length := (State.named_of_slotOf slot).1
    have live : (s.job i).state ≠ .closed := by rcases state with h | h <;> simp [h]
    have wait : a.other = 1 → closeJobRule body s = closeJobWait i s := fun mode =>
      closeJobRule_wait ⟨.inl mode, low, high⟩ slot live mode
    have now : a.other = 2 → (s.job i).openDips = 0 → closeJobRule body s = closeJobNow i s := fun mode dips =>
      closeJobRule_now ⟨.inr mode, low, high⟩ slot live mode dips
    exact ⟨fun mode dips unlisted => exec_done rfl takes rfl lenOk
        ((wait mode).trans (closeJobWait_closes inside number state dips unlisted)),
      fun mode held => exec_done rfl takes rfl lenOk ((wait mode).trans (closeJobWait_waits inside state held)),
      fun mode dips => exec_refused rfl takes rfl lenOk (closeJobRule_dipsOpen ⟨.inr mode, low, high⟩ slot live mode dips),
      fun mode dips listed => exec_done rfl takes rfl lenOk ((now mode dips).trans (closeJobNow_listed inside number listed)),
      fun mode dips unlisted =>
        exec_done rfl takes rfl lenOk ((now mode dips).trans (closeJobNow_unlisted inside number unlisted))⟩
  case removeJob =>
    exact ⟨fun beyond => exec_refused rfl takes rfl rfl (removeJobRule_badValue s beyond),
      fun inside ended => exec_done rfl takes rfl rfl (removeJobRule_frees inside ended),
      fun inside notClosed notDamaged => exec_refused rfl takes rfl rfl (removeJobRule_wrongState inside notClosed notDamaged)⟩

end Sys2Proof.Machine

namespace Sys2Proof.Machine

/-! ### RESUME, HOLD and the stop input (R162 to R166) -/

/-- A RESUME of a kettle that is not STOPPED and whose setup is UNCONFIRMED is refused (R162). -/
theorem resumeRule_unconfirmed {s : State} (going : s.mode ≠ .stopped) (unconfirmed : s.setup.confirmed = false) :
    resumeRule s = .refused .wrongState := by
  unfold resumeRule
  cases mode : s.mode with
  | stopped => exact absurd mode going
  | held | run => simp [unconfirmed]

/-- A fall of the stop input outside STOPPED (R164, R166). -/
theorem State.fallStop_of_going {s : State} (going : s.mode ≠ .stopped) :
    s.fallStop =
      ({ s with mode := .stopped, cranes := ⟨s.cranes.craneA.stopped, s.cranes.craneB.stopped⟩ }).notifyAll (.stopped s.mode) :=
  if_neg going

/-- A state with the stop input at a level. -/
def State.withStop (s : State) (low : Bool) : State := { s with inputs := { s.inputs with stopLow := low } }

/-- A fall of the stop input in a running part is a step of its own, from the state with the input low. -/
theorem exec_stopFall {s : State} (run : s.phase = .running) :
    exec .stopFall s = .next ((s.withStop true).endEvent (s.withStop true).fallStop .lapse) :=
  congrArg Host.Outcome.next (if_pos run)

/-- A rise of the stop input in a running part is a step of its own, from the state with the input high. -/
theorem exec_stopRise {s : State} (run : s.phase = .running) :
    exec .stopRise s = .next ((s.withStop false).endEvent (s.withStop false).riseStop .lapse) :=
  congrArg Host.Outcome.next (if_pos run)

/-- Settles O55: the two rules are read mode by mode, and the two events branch by branch. -/
theorem resume_hold_and_the_stop_input_move_the_mode : Obligations.RESUME_HOLD_and_the_stop_input_move_the_mode := by
  intro s
  refine ⟨fun takes => ⟨fun stopped => ?_, fun going unconfirmed => ?_, fun run confirmed => ?_, fun held confirmed => ?_,
    fun stopped => ?_, fun held => ?_, fun run => ?_⟩, fun run => ⟨fun going => ?_, fun stopped => ?_, fun going => ?_⟩⟩
  · exact exec_refused (r := .resume) rfl takes rfl rfl (by simp [ownRule, resumeRule, stopped])
  · exact exec_refused (r := .resume) rfl takes rfl rfl (resumeRule_unconfirmed going unconfirmed)
  · exact exec_done (r := .resume) rfl takes rfl rfl (by simp [ownRule, resumeRule, run, confirmed])
  · exact exec_done (r := .resume) rfl takes rfl rfl (by simp [ownRule, resumeRule, held, confirmed]; rfl)
  · exact exec_refused (r := .hold) rfl takes rfl rfl (by simp [ownRule, holdRule, stopped])
  · exact exec_done (r := .hold) rfl takes rfl rfl (by simp [ownRule, holdRule, held])
  · exact exec_done (r := .hold) rfl takes rfl rfl (by simp [ownRule, holdRule, run])
  · rw [exec_stopFall run, State.fallStop_of_going (s := s.withStop true) going]
    rfl
  · exact (exec_stopRise run).trans
      (congrArg (fun t : State => Host.Outcome.next ((s.withStop false).endEvent t .lapse)) (if_pos stopped))
  · exact (exec_stopRise run).trans
      (congrArg (fun t : State => Host.Outcome.next ((s.withStop false).endEvent t .lapse)) (if_neg going))

end Sys2Proof.Machine

namespace Sys2Proof.Machine

/-! ### Fields read back from bytes (R209) -/

@[simp] theorem length_u24 (v : Nat) : (u24 v).length = 3 := length_le 3 v
@[simp] theorem length_leSigned (n : Nat) (v : Int) : (leSigned n v).length = n := length_le n _

/-- The bytes of a value that has room in them read back as the value. -/
theorem fromLe_le {n v : Nat} (room : v < 256 ^ n) : fromLe (le n v) = v := by
  induction n generalizing v with
  | zero => simp only [pow_zero] at room; simp only [le, fromLe]; omega
  | succ n ih =>
    have rest : v / 256 < 256 ^ n := Nat.div_lt_of_lt_mul (by rw [pow_succ] at room; omega)
    simp only [le, fromLe, ih rest, BitVec.toNat_ofNat]
    omega

/-- A field at the head of the bytes. -/
theorem field_head {bytes : List Byte} {n : Nat} (len : bytes.length = n) (rest : List Byte) :
    field (bytes ++ rest) 0 n = fromLe bytes := by
  simp [field, ← len]

theorem field_whole {bytes : List Byte} {n : Nat} (len : bytes.length = n) : field bytes 0 n = fromLe bytes := by
  simp [field, ← len]

/-- A field past some first bytes. -/
theorem field_tail {bytes : List Byte} {off : Nat} (past : bytes.length ≤ off) (rest : List Byte) (n : Nat) :
    field (bytes ++ rest) off n = field rest (off - bytes.length) n := by
  simp [field, List.drop_append, List.drop_eq_nil_of_le past]

/-- A signed value that has room in `n + 1` bytes reads back from them. -/
theorem asSigned_fromLe_leSigned {n : Nat} {v : Int} (low : -(2 ^ (8 * n + 7) : Nat) ≤ v) (high : v < (2 ^ (8 * n + 7) : Nat)) :
    asSigned (n + 1) (fromLe (leSigned (n + 1) v)) = v := by
  have double : 2 ^ (8 * (n + 1)) = 2 * 2 ^ (8 * n + 7) := pow_succ' 2 (8 * n + 7)
  have bytes : 256 ^ (n + 1) = 2 ^ (8 * (n + 1)) := (pow_mul 2 8 (n + 1)).symm
  have half : 8 * (n + 1) - 1 = 8 * n + 7 := by omega
  unfold asSigned leSigned
  rw [fromLe_le (by rw [bytes]; omega), half, double]
  generalize 2 ^ (8 * n + 7) = half at low high
  rcases lt_or_ge v 0 with negative | natural
  · have wrapped : v % (2 * half : Nat) = v + (2 * half : Nat) := by
      rw [← Int.add_emod_right, Int.emod_eq_of_lt (by omega) (by omega)]
    rw [wrapped, if_neg (by omega)]
    omega
  · rw [Int.emod_eq_of_lt natural (by omega), if_pos (by omega)]
    omega

theorem fromLe_u8 {v : Nat} (room : v < 256) : fromLe (u8 v) = v := fromLe_le (n := 1) room
theorem fromLe_u16 {v : Nat} (room : v < 65536) : fromLe (u16 v) = v := fromLe_le (n := 2) room
theorem fromLe_u24 {v : Nat} (room : v < 16777216) : fromLe (u24 v) = v := fromLe_le (n := 3) room
theorem fromLe_u32 {v : Nat} (room : v < 4294967296) : fromLe (u32 v) = v := fromLe_le (n := 4) room

/-! ### Bodies read back as written (R172, R209) -/

theorem ReserveArgs.read_bytes {a : ReserveArgs} (kind : a.kind < 256) (tandem : a.tandem < 256) (f : a.f < 256) (l : a.l < 256)
    (job : a.job < 16777216) (cls : a.cls < 256) : ReserveArgs.read a.bytes = a := by
  simp [ReserveArgs.read, ReserveArgs.bytes, field_head, field_tail, field_whole, fromLe_u8, fromLe_u24, *]

theorem SetupArgs.read_bytes {a : SetupArgs} (nl : a.nl < 256) (g : a.g < 256) (fzf : a.fzf < 256) (fzl : a.fzl < 256) :
    SetupArgs.read a.bytes = a := by
  simp [SetupArgs.read, SetupArgs.bytes, field_head, field_tail, field_whole, fromLe_u8, *]

theorem SetClassArgs.read_bytes {a : SetClassArgs} (number : a.number < 256) (immMin : a.immMin < 65536)
    (immLimit : a.immLimit < 65536) (drainMode : a.drainMode < 256) (holdFactor : a.holdFactor < 256) (basis : a.basis < 256)
    (initialHold : a.initialHold < 65536) (blanking : a.blanking < 256) (window : a.window < 256) (threshold : a.threshold < 65536) :
    SetClassArgs.read a.bytes = a := by
  simp [SetClassArgs.read, SetClassArgs.bytes, field_head, field_tail, field_whole, fromLe_u8, fromLe_u16, *]

theorem SetHookArgs.read_bytes {a : SetHookArgs} (hook : a.hook < 256) (low : -8388608 ≤ a.zero) (high : a.zero ≤ 8388607)
    (span : a.span < 65536) : SetHookArgs.read a.bytes = a := by
  have zero : asSigned 3 (fromLe (leSigned 3 a.zero)) = a.zero :=
    asSigned_fromLe_leSigned (n := 2) low (by omega)
  simp [SetHookArgs.read, SetHookArgs.bytes, signedField, field_head, field_tail, field_whole, fromLe_u8, fromLe_u16, *]

theorem JobArgs.read_bytes {a : JobArgs} (job : a.job < 16777216) (other : a.other < 256) : JobArgs.read a.bytes = a := by
  simp [JobArgs.read, JobArgs.bytes, field_head, field_tail, field_whole, fromLe_u8, fromLe_u24, *]

theorem ReadJobArgs.read_bytes {a : ReadJobArgs} (selector : a.selector < 256) (value : a.value < 16777216) :
    ReadJobArgs.read a.bytes = a := by
  simp [ReadJobArgs.read, ReadJobArgs.bytes, field_head, field_tail, field_whole, fromLe_u8, fromLe_u24, *]

/-- The pairs of a TUNE KETTLE are read one after another, five bytes each. -/
theorem readPairs_cons {p : TunePair} (number : p.number < 256) (raw : p.raw < 4294967296) (fuel : Nat) (rest : List Byte) :
    readPairs (fuel + 1) (u8 p.number ++ u32 p.raw ++ rest) = p :: readPairs fuel rest := by
  have first : field (u8 p.number ++ (u32 p.raw ++ rest)) 0 1 = p.number := by simp [field_head, fromLe_u8, number]
  have second : field (u8 p.number ++ (u32 p.raw ++ rest)) 1 4 = p.raw := by simp [field_head, field_tail, fromLe_u32, raw]
  have others : (u8 p.number ++ (u32 p.raw ++ rest)).drop 5 = rest := by simp [List.drop_append, List.drop_eq_nil_of_le]
  rw [List.append_assoc]
  cases body : u8 p.number ++ (u32 p.raw ++ rest) with
  | nil => simpa using congrArg List.length body
  | cons b bs =>
    rw [body] at first second others
    simp only [readPairs, first, second, others]

@[simp] theorem TunePair.length_bytesAll (ps : List TunePair) : (TunePair.bytesAll ps).length = 5 * ps.length := by
  induction ps with
  | nil => rfl
  | cons p ps ih => simp [TunePair.bytesAll, ih]; omega

theorem TunePair.readAll_bytesAll {ps : List TunePair} (room : ∀ q ∈ ps, q.number < 256 ∧ q.raw < 4294967296) :
    TunePair.readAll (TunePair.bytesAll ps) = ps := by
  rw [TunePair.readAll, TunePair.length_bytesAll, Nat.mul_div_cancel_left _ (by decide)]
  induction ps with
  | nil => rfl
  | cons p ps ih =>
    obtain ⟨⟨number, raw⟩, rest⟩ := List.forall_mem_cons.mp room
    exact (readPairs_cons number raw ps.length _).trans (congrArg (p :: ·) (ih rest))

/-- The request that a code names has that code. -/
theorem Request.code_of_ofCode {b : Byte} {r : Request} (named : Request.ofCode b = some r) : r.code = b := by
  simpa using List.find?_some named

/-- Settles O16: every body is read field by field, and each field from its own bytes. -/
theorem bodies_and_codes_read_back_as_written : Obligations.Bodies_and_codes_read_back_as_written := by
  refine ⟨fun _ => ReserveArgs.read_bytes, fun _ => SetupArgs.read_bytes, fun _ => TunePair.readAll_bytesAll,
    fun _ => SetClassArgs.read_bytes, fun _ => SetHookArgs.read_bytes, fun _ => JobArgs.read_bytes,
    fun _ => ReadJobArgs.read_bytes, fun n => ⟨fun room => ?_, fun room => ?_, fun room => ?_⟩,
    Request.ofCode_code, fun _ _ => Request.code_of_ofCode⟩
  · exact (field_whole (length_u8 n)).trans (fromLe_u8 room)
  · exact (field_whole (length_u16 n)).trans (fromLe_u16 room)
  · exact (field_whole (length_u32 n)).trans (fromLe_u32 room)

end Sys2Proof.Machine

namespace Sys2Proof.Machine

/-! ### What only a TUNE KETTLE changes (R172, R173) -/

/-- The settings, which of a running part's commands only a TUNE KETTLE changes; and how many classes there are, which none
changes. -/
structure Fixture where
  settings : Settings
  classCount : Nat

/-- The settings of a state and the number of its classes. -/
def State.fixture (s : State) : Fixture := { settings := s.settings, classCount := s.classes.length }

section FixtureFrames

variable (s : State) (c : Crane) (x : CraneContext)

@[simp] theorem State.setCrane_fixture : (s.setCrane c x).fixture = s.fixture := rfl

@[simp] theorem State.idleCranes_fixture (tandem : Bool) (mark : Option Nat) :
    (s.idleCranes c tandem mark).fixture = s.fixture := by simp [State.fixture]

@[simp] theorem State.queueRecord_fixture (b : RecordBody) : (s.queueRecord b).fixture = s.fixture := rfl

@[simp] theorem State.notify_fixture (p : Port) (n : Notice) : (s.notify p n).fixture = s.fixture := rfl

@[simp] theorem State.notifyAll_fixture (n : Notice) : (s.notifyAll n).fixture = s.fixture := by
  simp [State.notifyAll]

@[simp] theorem State.notifyEntry_fixture (tandem : Bool) (n : Notice) : (s.notifyEntry c tandem n).fixture = s.fixture := by
  simp [State.fixture]

@[simp] theorem State.dropLive_fixture (n : Nat) : (s.dropLive n).fixture = s.fixture := rfl

@[simp] theorem State.modifyJob_fixture (i : Nat) (f : JobSlot → JobSlot) : (s.modifyJob i f).fixture = s.fixture := rfl

@[simp] theorem State.judgeFeed_fixture : s.judgeFeed.fixture = s.fixture := by simp [State.fixture]

@[simp] theorem State.setBook_fixture (b : Book) : (s.setBook b).fixture = s.fixture := by simp [State.fixture]

@[simp] theorem State.writeDue_fixture (d : Deadline) : (s.writeDue d).fixture = s.fixture := rfl

@[simp] theorem State.endEvent_fixture (new : State) (d : Deadline) : (s.endEvent new d).fixture = new.fixture := by
  rw [State.endEvent_frame]
  rfl

@[simp] theorem State.endRequest_fixture (new : State) : (s.endRequest new).fixture = new.fixture := by
  rw [State.endRequest_frame]
  rfl

@[simp] theorem State.announceAll_fixture (closed : List Nat) : (s.announceAll closed).fixture = s.fixture := by
  induction closed generalizing s with
  | nil => rfl
  | cons i rest ih => exact ih (s.announceClosed i)

@[simp] theorem State.runCloseTest_fixture (i : Nat) : (s.runCloseTest i).1.fixture = s.fixture := by
  unfold State.runCloseTest
  split <;> rfl

@[simp] theorem State.fallOpenDip_fixture (i : Nat) : (s.fallOpenDip i).1.fixture = s.fixture := by
  simp [State.fallOpenDip]

@[simp] theorem State.endDip_fixture (job : Option JobRef) : (s.endDip job).fixture = s.fixture := by
  unfold State.endDip
  split <;> simp

@[simp] theorem State.raiseOpenDip_fixture (job : Option JobRef) : (s.raiseOpenDip job).fixture = s.fixture := by
  unfold State.raiseOpenDip
  split <;> rfl

@[simp] theorem State.admitCrane_fixture (a : ReserveArgs) : (s.admitCrane c a).fixture = s.fixture := by
  unfold State.admitCrane
  dsimp only
  split <;> exact State.raiseOpenDip_fixture _ _

@[simp] theorem State.endReservation_fixture (mark : Option Nat) : (s.endReservation c mark).fixture = s.fixture := by
  simp only [State.endReservation, State.endDip_fixture, State.dropLive_fixture, State.idleCranes_fixture]
  rfl

@[simp] theorem State.endFeed_fixture (mark : Option Nat) : (s.endFeed mark).fixture = s.fixture := rfl

@[simp] theorem State.endEntry_fixture : (s.endEntry c).fixture = s.fixture := by
  simp only [State.endEntry, State.dropLive_fixture, State.idleCranes_fixture]
  rfl

@[simp] theorem State.dropJob_fixture (job : Option JobRef) : (s.dropJob job).1.fixture = s.fixture := by
  unfold State.dropJob
  split <;> simp

@[simp] theorem State.dropPiece_fixture : (s.dropPiece c).fixture = s.fixture := by
  simp only [State.dropPiece, State.announceAll_fixture, State.queueRecord_fixture, State.dropJob_fixture,
    State.dropLive_fixture, State.idleCranes_fixture]
  rfl

@[simp] theorem State.creditEntry_fixture (k : Closing) : (s.creditEntry x k).1.fixture = s.fixture := by
  unfold State.creditEntry
  split
  · exact State.fallOpenDip_fixture _ _
  · rfl

/-- A lesson replaces one class (R99). -/
@[simp] theorem State.teachClass_fixture (n : Option Nat) (k : Option ClassEntry) (d : Option Nat) :
    (s.teachClass n k d).fixture = s.fixture := by
  unfold State.teachClass
  split
  · split
    · split
      · simp [State.fixture]
      · rfl
    · rfl
  · rfl

@[simp] theorem State.startDrain_fixture (k : ClassEntry) : (s.startDrain c k).fixture = s.fixture := by
  unfold State.startDrain
  dsimp only
  split
  · exact State.notifyEntry_fixture _ _ _ _
  · rfl

/-- A fold of operations that each leave the settings and the number of classes leaves them. -/
theorem foldl_fixture {α : Type} {f : State → α → State} (hf : ∀ t a, (f t a).fixture = t.fixture) (xs : List α) :
    (xs.foldl f s).fixture = s.fixture := by
  induction xs generalizing s with
  | nil => rfl
  | cons a rest ih => exact (ih (f s a)).trans (hf s a)

@[simp] theorem State.bookPickup_fixture (k : Closing) : (s.bookPickup k).fixture = s.fixture := by
  unfold State.bookPickup
  split <;> simp

@[simp] theorem State.allocate_fixture (zc : Nat) : (s.allocate zc).1.fixture = s.fixture := by
  have close := fun t : State => foldl_fixture t (f := State.closeSlot) fun _ _ => rfl
  unfold State.allocate
  dsimp only
  split
  · exact close _ _
  · refine (close _ _).trans ?_
    exact foldl_fixture s (fun _ _ => State.modifyJob_fixture _ _ _) _

@[simp] theorem State.accountWork_fixture (k : Closing) : (s.accountWork c x k).fixture = s.fixture := by
  simp [State.accountWork]

@[simp] theorem State.accountDross_fixture (k : Closing) : (s.accountDross c x k).fixture = s.fixture := by
  unfold State.accountDross
  dsimp only
  split <;> simp

@[simp] theorem State.account_fixture (cause : EndCause) (reported : Option Int) :
    (s.account c cause reported).fixture = s.fixture := by
  unfold State.account
  dsimp only
  split
  · exact State.accountDross_fixture (s.endWatch c _) c _ _
  · exact State.accountWork_fixture (s.endWatch c _) c _ _

@[simp] theorem State.takeTimer_fixture (t : TimerStep) (reported : Option Int) :
    (s.takeTimer c t reported).fixture = s.fixture := by
  unfold State.takeTimer State.endDrain
  dsimp only
  split
  · split
    · exact State.account_fixture { s with timers := s.timers.set c t.timer } c _ reported
    · rfl
  · rfl

@[simp] theorem State.scanWatch_fixture : (s.scanWatch c).fixture = s.fixture := by
  unfold State.scanWatch State.scanBlanking State.scanAfter
  dsimp only
  split
  · rfl
  · split <;> rfl
  · split
    · exact State.takeTimer_fixture { s with watches := s.watches.set c _ } c _ _
    · rfl

@[simp] theorem State.expireWithin_fixture (lead : Nat) : (s.expireWithin c lead).fixture = s.fixture := by
  rw [State.expireWithin_frame]
  rfl

@[simp] theorem State.scanHook_fixture (r : Reading) : (s.scanHook c r).fixture = s.fixture := by
  unfold State.scanHook State.faultHook State.noticeFault
  dsimp only
  split
  · split <;> rfl
  · rfl

@[simp] theorem State.loadScan_fixture (rA rB : Reading) (first : Crane) : (s.loadScan rA rB first).fixture = s.fixture := by
  simp only [State.loadScan, State.endEvent_fixture, State.scanWatch_fixture, State.scanHooks, State.scanHook_fixture,
    State.elapse, State.expireWithin_fixture]
  rfl

@[simp] theorem State.tickTimer_fixture : (s.tickTimer c).fixture = s.fixture := by
  unfold State.tickTimer
  split <;> simp

@[simp] theorem State.meetCompare_fixture : (s.meetCompare c).fixture = s.fixture := by
  unfold State.meetCompare
  dsimp only
  split <;> simp

@[simp] theorem State.saturateTimer_fixture : (s.saturateTimer c).fixture = s.fixture := by
  unfold State.saturateTimer
  dsimp only
  split <;> simp

@[simp] theorem State.reachAfter_fixture : (s.reachAfter c).fixture = s.fixture := by
  unfold State.reachAfter
  dsimp only
  split <;> rfl

@[simp] theorem State.reconcile_fixture : s.reconcile.fixture = s.fixture := by
  unfold State.reconcile
  dsimp only
  split
  · rfl
  · split
    · split <;> rfl
    · rfl

@[simp] theorem State.scanBath_fixture (level temp : Reading) : (s.scanBath level temp).fixture = s.fixture := by
  have quiet : (s.scanQuiet level temp).fixture = s.fixture := by
    unfold State.scanQuiet State.judgeQuiet
    split <;> rfl
  rw [State.scanBath_eq, State.judgeFeed_fixture]
  split
  · exact (State.reconcile_fixture _).trans quiet
  · exact quiet

@[simp] theorem State.fallStop_fixture : s.fallStop.fixture = s.fixture := by
  unfold State.fallStop
  split
  · rfl
  · exact State.notifyAll_fixture _ _

@[simp] theorem State.riseStop_fixture : s.riseStop.fixture = s.fixture := by
  unfold State.riseStop
  split <;> rfl

@[simp] theorem State.lapseEntry_fixture (ctx : Context) : (s.lapseEntry ctx).fixture = s.fixture := by
  unfold State.lapseEntry
  split
  · cases ctx <;> simp [State.lapseCrane, State.lapseFeed]
  · rfl

@[simp] theorem State.runOut_fixture (ctx : Context) : (s.runOut ctx).fixture = s.fixture := by
  unfold State.runOut
  split <;> simp

@[simp] theorem State.runOuts_fixture : s.runOuts.fixture = s.fixture := by simp [State.runOuts]

end FixtureFrames

/-! ### What the owning rules do to the settings -/

/-- A list that passes the tests of R172 leaves every setting in its range. -/
theorem Settings.inRange_tuned {t : Settings} {ps : List TunePair} (ok : tuneOk ps t = true) (ranges : t.inRange) :
    (t.tuned ps).inRange := by
  simp only [tuneOk, Bool.and_eq_true, List.all_eq_true, decide_eq_true_eq] at ok
  obtain ⟨⟨pairs, -⟩, window⟩ := ok
  refine ⟨fun n first last => ?_, window⟩
  by_cases named : ∃ p ∈ ps, p.number = n
  · obtain ⟨p, mem, rfl, value⟩ := Settings.get_tuned_of_named (t := t) pairs named
    have range := pairs p mem
    simp only [TunePair.ok, Bool.and_eq_true, decide_eq_true_eq] at range
    rw [value]
    exact ⟨range.1.2, range.2⟩
  · push Not at named
    rw [Settings.get_tuned_of_not_named named]
    exact ranges.1 n first last

/-- From one state to another every setting that was in its range is in its range, and no class comes or goes. -/
structure State.keepsRanges (s t : State) : Prop where
  classCount : t.classes.length = s.classes.length
  ranges : s.settings.inRange → t.settings.inRange

theorem State.keepsRanges_refl (s : State) : s.keepsRanges s := ⟨rfl, id⟩

theorem State.keepsRanges.trans {s t u : State} (h : s.keepsRanges t) (h' : t.keepsRanges u) : s.keepsRanges u :=
  ⟨h'.classCount.trans h.classCount, h'.ranges ∘ h.ranges⟩

theorem State.keepsRanges_of_kept {s t : State} (h : t.fixture = s.fixture) : s.keepsRanges t :=
  have settings : t.settings = s.settings := congrArg Fixture.settings h
  ⟨congrArg Fixture.classCount h, fun ranges => settings ▸ ranges⟩

/-- What a rule makes of the settings: a refusal or a read leaves them. -/
def Reply.keepsRanges (s : State) : Reply → Prop
  | .done _ new => s.keepsRanges new
  | .refused _ | .told _ => True

theorem Reply.keepsRanges_done_of_kept {s new : State} {ans : List Byte} (h : new.fixture = s.fixture) :
    (Reply.done ans new).keepsRanges s := State.keepsRanges_of_kept h

theorem byCrane_keepsRanges {p : Port} {rule : Crane → Reply} {s : State} (h : ∀ c, (rule c).keepsRanges s) : (byCrane p rule).keepsRanges s := by
  unfold byCrane
  split
  · exact h _
  · trivial

theorem closeJobRule_keepsRanges (body : List Byte) (s : State) : (closeJobRule body s).keepsRanges s := by
  have wait : ∀ i, (closeJobWait i s).keepsRanges s := fun i => Reply.keepsRanges_done_of_kept (by simp)
  have now : ∀ i, (closeJobNow i s).keepsRanges s := fun i => Reply.keepsRanges_done_of_kept (State.announceAll_fixture _ _)
  unfold closeJobRule
  dsimp only
  repeat' split
  all_goals first | trivial | exact wait _ | exact now _

theorem tuneKettleRule_keepsRanges (body : List Byte) (s : State) : (tuneKettleRule body s).keepsRanges s := by
  unfold tuneKettleRule
  dsimp only
  split
  · rename_i ok
    refine ⟨?_, fun ranges => ?_⟩
    · rw [State.tune_eq]
    · rw [State.tune_eq]
      exact Settings.inRange_tuned ok ranges
  · trivial

/-- Every owning rule but TUNE KETTLE's leaves the settings. -/
theorem ownRule_keepsRanges (r : Request) (p : Port) (body : List Byte) (s : State) : (ownRule r p body s).keepsRanges s := by
  cases r with
  | status | readBook | readLanes => trivial
  | reserve | release | lower | submerged | withdraw | clear | turned | leave | dropped | join | readHook | zeroHook =>
    refine byCrane_keepsRanges fun c => ?_
    simp only [reserveRule, releaseRule, lowerRule, submergedRule, withdrawRule, clearRule, turnedRule, leaveRule, droppedRule,
      joinRule, readHookRule, zeroHookRule]
    repeat' split
    all_goals first | trivial | exact Reply.keepsRanges_done_of_kept rfl | exact Reply.keepsRanges_done_of_kept (by simp)
  | takeNotice | charge | chargeIn | chargeAbort | skim | setupKettle | readClass | setHook | openJob | readJob | removeJob
  | takeRecords | rebase | openBook | resume | hold | clearFoul | reconcileNow =>
    simp only [ownRule, takeNoticeRule, chargeRule, chargeInRule, chargeAbortRule, skimRule, setupKettleRule, readClassRule,
      setHookRule, openJobRule, readJobRule, removeJobRule, takeRecordsRule, rebaseRule, openBookRule, resumeRule, holdRule,
      clearFoulRule, reconcileNowRule]
    repeat' split
    all_goals first | trivial | exact Reply.keepsRanges_done_of_kept rfl | exact Reply.keepsRanges_done_of_kept (by simp)
  | setClass =>
    simp only [ownRule, setClassRule]
    split
    · exact Reply.keepsRanges_done_of_kept (by simp [State.fixture])
    · trivial
  | closeJob => exact closeJobRule_keepsRanges body s
  | tuneKettle => exact tuneKettleRule_keepsRanges body s

/-! ### What a running part's commands do to the settings -/

theorem State.serve_keepsRanges (s : State) (p : Port) (r : Request) (body : List Byte) : s.keepsRanges (s.serve p r body) := by
  have own := ownRule_keepsRanges r p body s
  rcases s.serve_cases p r body with ⟨st, -, h⟩ | ⟨ans, -, h⟩ | ⟨ans, new, ho, h⟩
  · rw [h]; exact State.keepsRanges_of_kept rfl
  · rw [h]; exact State.keepsRanges_of_kept rfl
  · rw [ho] at own
    rw [h]; exact State.keepsRanges.trans own (State.keepsRanges_of_kept (s.endRequest_fixture new))

theorem State.settle_keepsRanges (s : State) (p : Port) : s.keepsRanges (s.settle p) := by
  unfold State.settle
  split
  · exact s.serve_keepsRanges p _ _
  · exact s.keepsRanges_refl

theorem State.judge_keepsRanges (s : State) (p : Port) (rx : ReceiveBuffer) (check : Byte) :
    s.keepsRanges (s.judge p rx check) := by
  rcases State.judge_cases (s := s) (p := p) (rx := rx) (check := check) with ⟨st, h⟩ | ⟨r, -, -, -, h⟩
  · rw [h]; exact State.keepsRanges_of_kept rfl
  · rw [h]; exact s.serve_keepsRanges p r _

theorem State.keepsRanges.endTransfer {s t : State} (h : s.keepsRanges t) (p : Port) : s.keepsRanges (t.endTransfer p) :=
  ⟨h.classCount, h.ranges⟩

theorem State.writeTransfer_keepsRanges (s : State) (p : Port) (addr : LinkAddress) (code : Byte) (body : List Byte)
    (check : Byte) : s.keepsRanges (s.writeTransfer p addr code body check) := by
  unfold State.writeTransfer
  split
  · exact ((s.settle_keepsRanges p).trans (State.judge_keepsRanges _ p _ check)).endTransfer p
  · exact s.keepsRanges_refl

theorem State.readFrom_keepsRanges (s : State) (p : Port) (clocked : Nat) : s.keepsRanges (s.readFrom p clocked) :=
  ((s.settle_keepsRanges p).trans (u := (s.settle p).sendAnswer p clocked) (State.keepsRanges_of_kept rfl)).endTransfer p

theorem State.dropWrite_keepsRanges (s : State) (p : Port) : s.keepsRanges (s.dropWrite p) :=
  (s.settle_keepsRanges p).endTransfer p

/-- A flush makes the changes of the PENDING requests (R193). -/
theorem State.flushPart_keepsRanges (s : State) : s.keepsRanges s.flushPart := by
  have settled : s.keepsRanges s.settleAll.1 :=
    (((s.settle_keepsRanges .craneA).trans (State.settle_keepsRanges _ .craneB)).trans (State.settle_keepsRanges _ .feed)).trans
      (State.settle_keepsRanges _ .office)
  unfold State.flushPart
  split
  · exact settled.trans (State.keepsRanges_of_kept rfl)
  · exact s.keepsRanges_refl

/-- An event other than a flush or a request leaves the settings, where its own meaning does. -/
theorem State.whileRunning_keepsRanges {s : State} {act : State → State} (h : ∀ t : State, (act t).fixture = t.fixture) :
    s.keepsRanges (s.whileRunning act) := by
  unfold State.whileRunning
  split
  · exact State.keepsRanges_of_kept (h s)
  · exact s.keepsRanges_refl

/-- Whatever command a running part takes, it keeps every setting in its range. -/
theorem exec_keepsRanges {i : Instr} {s t : State} (run : s.phase = .running) (h : exec i s = .next t) : s.keepsRanges t := by
  cases i <;> cases h
  case unknownRequest => exact s.writeTransfer_keepsRanges _ _ _ _ _
  case readTransfer =>
    split
    · exact s.readFrom_keepsRanges _ _
    · exact s.keepsRanges_refl
  case shortWrite =>
    split
    · exact s.dropWrite_keepsRanges _
    · exact s.keepsRanges_refl
  case linkLowTimeout p during =>
    rw [if_pos run]
    cases during with
    | idle => exact s.keepsRanges_refl
    | writing bytes => exact s.dropWrite_keepsRanges p
    | reading clocked => exact s.readFrom_keepsRanges p clocked
  case lapseExpiry | loadScan | drainTimerTick | timedCompareMet | drainSaturation | blankingEnd =>
    exact State.whileRunning_keepsRanges fun t => by simp
  case immersionLimitExpiry c =>
    exact State.whileRunning_keepsRanges fun t => (t.endEvent_fixture _ _).trans (t.expireWithin_fixture c 1)
  case bathScan rl rt us =>
    exact State.whileRunning_keepsRanges fun t => by
      rw [State.endEvent_fixture, State.scanBath_fixture]
      rfl
  case stopFall | stopRise =>
    refine State.keepsRanges.trans ?_ (State.whileRunning_keepsRanges fun t => by simp)
    exact State.keepsRanges_of_kept rfl
  case supplyFailFall | resetAssert =>
    refine State.keepsRanges.trans ?_ (State.flushPart_keepsRanges _)
    exact State.keepsRanges_of_kept rfl
  case resetRelease | supplyFailRise =>
    rw [State.tryRestart_of_running (by exact run)]
    exact State.keepsRanges_of_kept rfl
  case powerOn =>
    rw [if_pos run]
    exact s.keepsRanges_refl
  case supplyCollapse tears =>
    rw [State.collapse_frame]
    exact s.flushPart_keepsRanges.trans (State.keepsRanges_of_kept rfl)
  all_goals exact s.writeTransfer_keepsRanges _ _ _ _ _

/-- Settles O12: of a running part's commands only a TUNE KETTLE changes settings, and its list passes the tests of R172. -/
theorem settings_stay_in_range : Obligations.Settings_stay_in_range :=
  fun _ _ _ run ranges h => (exec_keepsRanges run h).ranges ranges

end Sys2Proof.Machine

namespace Sys2Proof.Machine

/-! ### Rules that read neither the inputs nor the port engines -/

/-- A state with other inputs and other port engines. -/
@[simps] def State.relink (s : State) (i : Inputs) (e : PerPort Engine) : State := { s with inputs := i, engines := e }

/-- A reply with the inputs and the port engines of its new state replaced. -/
def Reply.relink (i : Inputs) (e : PerPort Engine) : Reply → Reply
  | .done ans new => .done ans (new.relink i e)
  | .refused st => .refused st
  | .told ans => .told ans

section Relink

variable (s : State) (i : Inputs) (e : PerPort Engine) (c : Crane) (x : CraneContext)

@[simp] theorem State.setCrane_relink : (s.relink i e).setCrane c x = (s.setCrane c x).relink i e := rfl

@[simp] theorem State.idleCranes_relink (tandem : Bool) (mark : Option Nat) :
    (s.relink i e).idleCranes c tandem mark = (s.idleCranes c tandem mark).relink i e := by
  cases tandem <;> rfl

@[simp] theorem State.queueRecord_relink (b : RecordBody) :
    (s.relink i e).queueRecord b = (s.queueRecord b).relink i e := rfl

@[simp] theorem State.notify_relink (p : Port) (n : Notice) : (s.relink i e).notify p n = (s.notify p n).relink i e := rfl

@[simp] theorem State.notifyAll_relink (n : Notice) : (s.relink i e).notifyAll n = (s.notifyAll n).relink i e := by
  simp [State.notifyAll]

@[simp] theorem State.notifyEntry_relink (tandem : Bool) (n : Notice) :
    (s.relink i e).notifyEntry c tandem n = (s.notifyEntry c tandem n).relink i e := by
  cases tandem <;> rfl

@[simp] theorem State.dropLive_relink (n : Nat) : (s.relink i e).dropLive n = (s.dropLive n).relink i e := rfl

@[simp] theorem State.modifyJob_relink (k : Nat) (f : JobSlot → JobSlot) :
    (s.relink i e).modifyJob k f = (s.modifyJob k f).relink i e := rfl

@[simp] theorem State.judgeFeed_relink : (s.relink i e).judgeFeed = s.judgeFeed.relink i e := by
  unfold State.judgeFeed
  rw [apply_ite fun t : State => t.relink i e]
  rfl

@[simp] theorem State.setBook_relink (b : Book) : (s.relink i e).setBook b = (s.setBook b).relink i e :=
  State.judgeFeed_relink { s with book := b } i e

@[simp] theorem State.announceAll_relink (closed : List Nat) :
    (s.relink i e).announceAll closed = (s.announceAll closed).relink i e := by
  induction closed generalizing s with
  | nil => rfl
  | cons k rest ih => exact ih (s.announceClosed k)

@[simp] theorem State.runCloseTest_relink (k : Nat) :
    (s.relink i e).runCloseTest k = ((s.runCloseTest k).1.relink i e, (s.runCloseTest k).2) := by
  unfold State.runCloseTest
  rw [show (s.relink i e).closeTest k = s.closeTest k from rfl]
  split <;> rfl

@[simp] theorem State.fallOpenDip_relink (k : Nat) :
    (s.relink i e).fallOpenDip k = ((s.fallOpenDip k).1.relink i e, (s.fallOpenDip k).2) := by
  simp [State.fallOpenDip]

@[simp] theorem State.endDip_relink (job : Option JobRef) : (s.relink i e).endDip job = (s.endDip job).relink i e := by
  cases job <;> simp [State.endDip]

@[simp] theorem State.raiseOpenDip_relink (job : Option JobRef) :
    (s.relink i e).raiseOpenDip job = (s.raiseOpenDip job).relink i e := by
  cases job <;> rfl

@[simp] theorem State.endEntry_relink : (s.relink i e).endEntry c = (s.endEntry c).relink i e :=
  congrArg (fun t : State => t.dropLive _) (State.idleCranes_relink { s with lanes := _ } i e c _ _)

@[simp] theorem State.endReservation_relink (mark : Option Nat) :
    (s.relink i e).endReservation c mark = (s.endReservation c mark).relink i e := by
  unfold State.endReservation
  dsimp only
  rw [← State.endDip_relink, ← State.dropLive_relink, ← State.idleCranes_relink]
  rfl

@[simp] theorem State.endFeed_relink (mark : Option Nat) : (s.relink i e).endFeed mark = (s.endFeed mark).relink i e := rfl

@[simp] theorem State.admitCrane_relink (a : ReserveArgs) :
    (s.relink i e).admitCrane c a = (s.admitCrane c a).relink i e := by
  unfold State.admitCrane
  dsimp only
  rw [apply_ite fun t : State => t.relink i e, ← State.notify_relink, ← State.raiseOpenDip_relink]
  rfl

@[simp] theorem State.dropJob_relink (job : Option JobRef) :
    (s.relink i e).dropJob job = ((s.dropJob job).1.relink i e, (s.dropJob job).2) := by
  cases job <;> simp [State.dropJob]

@[simp] theorem State.creditEntry_relink (k : Closing) :
    (s.relink i e).creditEntry x k = ((s.creditEntry x k).1.relink i e, (s.creditEntry x k).2) := by
  unfold State.creditEntry
  split
  · unfold State.creditJob
    exact State.fallOpenDip_relink { s with jobs := _, period := _ } i e _
  · rfl

@[simp] theorem State.teachClass_relink (n : Option Nat) (k : Option ClassEntry) (d : Option Nat) :
    (s.relink i e).teachClass n k d = (s.teachClass n k d).relink i e := by
  unfold State.teachClass
  split
  · rw [State.relink_classes]
    split
    · rw [apply_ite fun t : State => t.relink i e]
      rfl
    · rfl
  · rfl

@[simp] theorem State.bookPickup_relink (k : Closing) : (s.relink i e).bookPickup k = (s.bookPickup k).relink i e := by
  unfold State.bookPickup
  cases k.credited with
  | none => rfl
  | some m => exact State.setBook_relink s i e _

/-- A fold of operations that each read neither inputs nor engines reads neither. -/
theorem foldl_relink {α : Type} {f : State → α → State} (hf : ∀ t a, f (t.relink i e) a = (f t a).relink i e) (xs : List α) :
    xs.foldl f (s.relink i e) = (xs.foldl f s).relink i e := by
  induction xs generalizing s with
  | nil => rfl
  | cons a rest ih => rw [List.foldl_cons, List.foldl_cons, hf, ih]

@[simp] theorem State.allocate_relink (zc : Nat) :
    (s.relink i e).allocate zc = ((s.allocate zc).1.relink i e, (s.allocate zc).2) := by
  have close := fun t : State => foldl_relink t i e (f := State.closeSlot) fun _ _ => rfl
  have share := foldl_relink s i e (f := fun t (p : PeriodEntry × Nat) => t.modifyJob p.1.slot fun j => j.addShare p.2)
    (fun _ _ => rfl)
  unfold State.allocate State.applyShares
  simp only [State.relink_period]
  split
  · exact Prod.ext (close { s with book := s.book.addUnallocated zc } _) rfl
  · rw [share]
    exact Prod.ext (close { s.applyShares (s.period.zip (sharesOf zc s.period)) with period := [] } _) rfl

@[simp] theorem State.accountWork_relink (k : Closing) :
    (s.relink i e).accountWork c x k = (s.accountWork c x k).relink i e := by
  simp [State.accountWork]

@[simp] theorem State.accountDross_relink (k : Closing) :
    (s.relink i e).accountDross c x k = (s.accountDross c x k).relink i e := by
  unfold State.accountDross
  dsimp only
  split <;> simp

@[simp] theorem State.account_relink (cause : EndCause) (reported : Option Int) :
    (s.relink i e).account c cause reported = (s.account c cause reported).relink i e := by
  unfold State.account
  simp only [State.relink_cranes]
  split
  · exact State.accountDross_relink (s.endWatch c _) i e c _ _
  · exact State.accountWork_relink (s.endWatch c _) i e c _ _

@[simp] theorem State.dropPiece_relink : (s.relink i e).dropPiece c = (s.dropPiece c).relink i e := by
  have dropped (t : State) (tandem : Bool) (n : Nat) (job : Option JobRef) :
      ((((t.relink i e).idleCranes c tandem none).dropLive n).dropJob job) =
        ((((t.idleCranes c tandem none).dropLive n).dropJob job).1.relink i e,
          (((t.idleCranes c tandem none).dropLive n).dropJob job).2) := by simp
  unfold State.dropPiece
  dsimp only
  rw [← State.announceAll_relink, ← State.queueRecord_relink]
  exact congrArg (fun r : State × List Nat => (r.1.queueRecord _).announceAll r.2)
    (dropped { s with lanes := _, foul := _ } _ _ _)

@[simp] theorem State.startDrain_relink (k : ClassEntry) :
    (s.relink i e).startDrain c k = (s.startDrain c k).relink i e := by
  unfold State.startDrain
  dsimp only
  rw [apply_ite fun t : State => t.relink i e, ← State.notifyEntry_relink]
  rfl

@[simp] theorem State.tune_relink (new : Settings) : (s.relink i e).tune new = (s.tune new).relink i e := by
  rw [State.tune_eq, State.tune_eq]
  rfl

@[simp] theorem State.endRequest_relink (new : State) :
    (s.relink i e).endRequest (new.relink i e) = (s.endRequest new).relink i e := by
  have still : (s.relink i e).judgeStill (new.relink i e) = (s.judgeStill new).relink i e := by
    unfold State.judgeStill
    rw [apply_ite fun t : State => t.relink i e, apply_ite fun t : State => t.relink i e]
    rfl
  unfold State.endRequest
  rw [still]
  rfl

end Relink

/-! ### The owning rules read neither the inputs nor the port engines -/

section RuleRelink

variable (s : State) (i : Inputs) (e : PerPort Engine) (c : Crane) (body : List Byte)

@[simp] theorem reserveRefusal_relink (a : ReserveArgs) : reserveRefusal c a (s.relink i e) = reserveRefusal c a s := rfl
@[simp] theorem lowerRefusal_relink : lowerRefusal c (s.relink i e) = lowerRefusal c s := rfl
@[simp] theorem moveRefusal_relink (states : List EntryState) :
    moveRefusal c (s.relink i e) states = moveRefusal c s states := rfl
@[simp] theorem State.issued_relink : (s.relink i e).issued = s.issued := rfl
@[simp] theorem State.slotOf_relink (n : Nat) : (s.relink i e).slotOf n = s.slotOf n := rfl
@[simp] theorem State.job_relink (k : Nat) : (s.relink i e).job k = s.job k := rfl
@[simp] theorem State.closing_relink (cause : EndCause) (reported : Option Int) :
    (s.relink i e).closing c cause reported = s.closing c cause reported := rfl
@[simp] theorem State.still_relink : (s.relink i e).still = s.still := rfl

theorem byCrane_relink {p : Port} {rule rule' : Crane → Reply} (h : ∀ c, rule' c = (rule c).relink i e) :
    byCrane p rule' = (byCrane p rule).relink i e := by
  unfold byCrane
  split
  · exact h _
  · rfl

theorem reserveRule_relink : reserveRule c body (s.relink i e) = (reserveRule c body s).relink i e := by
  simp only [reserveRule, reserveRefusal_relink, State.admitCrane_relink]
  split <;> rfl

theorem releaseRule_relink : releaseRule c (s.relink i e) = (releaseRule c s).relink i e := by
  simp only [releaseRule, State.relink_cranes, State.endReservation_relink]
  split
  · split <;> rfl
  all_goals rfl

theorem leaveRule_relink : leaveRule c (s.relink i e) = (leaveRule c s).relink i e := by
  simp only [leaveRule, moveRefusal_relink, State.relink_cranes, State.closing_relink, State.account_relink,
    State.endEntry_relink]
  split
  · rfl
  · split <;> rfl

theorem closeJobRule_relink : closeJobRule body (s.relink i e) = (closeJobRule body s).relink i e := by
  have wait (k : Nat) : closeJobWait k (s.relink i e) = (closeJobWait k s).relink i e := by
    simp [closeJobWait, Reply.relink]
  have now (k : Nat) : closeJobNow k (s.relink i e) = (closeJobNow k s).relink i e := rfl
  simp only [closeJobRule, wait, now, State.slotOf_relink, State.job_relink]
  repeat' split
  all_goals rfl

/-- Every owning rule answers the same, and makes the same changes, whatever the inputs and the port engines are. -/
theorem ownRule_relink (r : Request) (p : Port) : ownRule r p body (s.relink i e) = (ownRule r p body s).relink i e := by
  cases r with
  | status | readBook | readLanes | takeNotice => rfl
  | reserve => exact byCrane_relink i e fun c => reserveRule_relink s i e c body
  | release => exact byCrane_relink i e fun c => releaseRule_relink s i e c
  | leave => exact byCrane_relink i e fun c => leaveRule_relink s i e c
  | closeJob => exact closeJobRule_relink s i e body
  | removeJob =>
    simp only [ownRule, removeJobRule]
    by_cases high : Config.jobCount ≤ readU8 body
    · simp only [if_pos high, Reply.relink]
    · by_cases ended : (s.job (readU8 body)).state = .closed ∨ (s.job (readU8 body)).state = .damaged
      · have endedThere : ((s.relink i e).job (readU8 body)).state = .closed ∨
          ((s.relink i e).job (readU8 body)).state = .damaged := ended
        simp only [if_neg high, if_pos ended, if_pos endedThere, State.modifyJob_relink, Reply.relink]
      · have unendedThere : ¬(((s.relink i e).job (readU8 body)).state = .closed ∨
          ((s.relink i e).job (readU8 body)).state = .damaged) := ended
        simp only [if_neg high, if_neg ended, if_neg unendedThere, Reply.relink]
  | lower | submerged | withdraw | clear | turned | dropped | join | readHook | zeroHook =>
    refine byCrane_relink i e fun c => ?_
    simp only [lowerRule, submergedRule, withdrawRule, clearRule, turnedRule, droppedRule, joinRule, readHookRule, zeroHookRule,
      lowerRefusal_relink, moveRefusal_relink, State.relink_cranes, State.relink_hooks, State.startDrain_relink,
      State.dropPiece_relink]
    repeat' split
    all_goals rfl
  | charge | chargeIn | chargeAbort | skim | setupKettle | tuneKettle | setClass | setHook | readClass | readJob | openJob
  | takeRecords | rebase | openBook | resume | hold | clearFoul | reconcileNow =>
    simp only [ownRule, chargeRule, chargeInRule, chargeAbortRule, skimRule, setupKettleRule, tuneKettleRule, setClassRule,
      setHookRule, readClassRule, readJobRule, openJobRule, takeRecordsRule, rebaseRule, openBookRule, resumeRule,
      holdRule, clearFoulRule, reconcileNowRule, State.relink_feed, State.relink_mode, State.relink_lanes, State.relink_setup,
      State.relink_settings, State.relink_cranes, State.relink_jobs, State.relink_recon, State.relink_book, State.slotOf_relink,
      State.still_relink, State.setBook_relink, State.tune_relink]
    repeat' split
    all_goals rfl

/-- A request handed to its owning block makes the same changes whatever the inputs and the port engines are, and answers the
same. -/
theorem State.serve_relink (p : Port) (r : Request) :
    (s.relink i e).serve p r body =
      (s.serve p r body).relink i (e.set p { e.get p with slot := ((s.serve p r body).engines.get p).slot }) := by
  unfold State.serve
  rw [ownRule_relink]
  cases ownRule r p body s with
  | refused st => simp [Reply.relink, State.finish, State.setSlot, State.relink]
  | told ans => simp [Reply.relink, State.finish, State.setSlot, State.relink]
  | done ans new =>
    simp only [Reply.relink, State.finish, State.endRequest_relink]
    simp [State.setSlot, State.relink]

/-- A request handed to its owning block leaves the inputs, and of the port engines all but its port's slot. -/
theorem State.serve_links (p : Port) (r : Request) :
    (s.serve p r body).inputs = s.inputs ∧
      (s.serve p r body).engines =
        s.engines.set p { s.engines.get p with slot := ((s.serve p r body).engines.get p).slot } := by
  have same := s.serve_relink s.inputs s.engines body p r
  exact ⟨(congrArg State.inputs same :), (congrArg State.engines same :)⟩

end RuleRelink
end Sys2Proof.Machine

namespace Sys2Proof.Machine

/-! ### The items of an image, one by one (R190) -/

/-- Two images hold as many classes and as many job slots. -/
structure StoreImage.sized (a b : StoreImage) : Prop where
  classes : a.classes.length = b.classes.length
  jobs : a.jobs.length = b.jobs.length

theorem StoreImage.sized.symm {a b : StoreImage} (h : a.sized b) : b.sized a := ⟨h.classes.symm, h.jobs.symm⟩

theorem StoreImage.sized.trans {a b c : StoreImage} (h : a.sized b) (h' : b.sized c) : a.sized c :=
  ⟨h.classes.trans h'.classes, h.jobs.trans h'.jobs⟩

theorem StoreImage.putItem_jobs_length (dst src : StoreImage) (k : StoreKey) :
    (dst.putItem src k).jobs.length = dst.jobs.length := by
  cases k with
  | classFields n | classEdition n =>
    dsimp only [StoreImage.putItem]
    split <;> rfl
  | job n =>
    dsimp only [StoreImage.putItem]
    split
    · exact List.length_set
    · rfl
  | _ => rfl

theorem StoreImage.putItem_sized (dst src : StoreImage) (k : StoreKey) : (dst.putItem src k).sized dst :=
  ⟨dst.putItem_classes_length src k, dst.putItem_jobs_length src k⟩

/-- A setting given the value that it has in other settings reads as there. -/
theorem Settings.get_put_get (t u : Settings) (n : Nat) : (t.put n (u.get n)).get n = u.get n := by
  unfold Settings.get
  split <;> rfl

/-- A list with one place given the element of another list of its length agrees there with that list. -/
theorem getElem?_of_same_length {α : Type} {xs ys : List α} (same : xs.length = ys.length) (n : Nat) :
    (∃ x y, xs[n]? = some x ∧ ys[n]? = some y) ∨ (xs[n]? = none ∧ ys[n]? = none) := by
  by_cases inside : n < xs.length
  · exact .inl ⟨_, _, List.getElem?_eq_getElem inside, List.getElem?_eq_getElem (same ▸ inside)⟩
  · exact .inr ⟨List.getElem?_eq_none (by omega), List.getElem?_eq_none (by omega)⟩

/-- A written item is as in the image it was written from. -/
theorem sameItem_putItem {dst src : StoreImage} (sized : dst.sized src) (k : StoreKey) :
    sameItem (dst.putItem src k) src k = true := by
  cases k with
  | setting n => simp [sameItem, StoreImage.putItem, Settings.get_put_get]
  | hook c => simp [sameItem, StoreImage.putItem]
  | classFields n | classEdition n =>
    rcases getElem?_of_same_length sized.classes n with ⟨d, k, old, new⟩ | ⟨old, new⟩
    · simp [sameItem, StoreImage.putItem, old, new, List.getElem?_set_self', ClassEntry.unedited]
    · simp [sameItem, StoreImage.putItem, old, new]
  | job n =>
    rcases getElem?_of_same_length sized.jobs n with ⟨d, k, old, new⟩ | ⟨old, new⟩
    · simp [sameItem, StoreImage.putItem, old, new, List.getElem?_set_self']
    · simp [sameItem, StoreImage.putItem, old, new]
  | _ => simp [sameItem, StoreImage.putItem]

/-- A write of one item leaves every other. -/
theorem sameItem_putItem_other (dst src : StoreImage) {j k : StoreKey} (other : k ≠ j) :
    sameItem (dst.putItem src j) dst k = true := by
  cases j with
  | setting n =>
    cases k with
    | setting m =>
      have apart : m ≠ n := fun e => other (congrArg StoreKey.setting e)
      simp [sameItem, StoreImage.putItem, Settings.get_put_other _ _ apart]
    | _ => simp [sameItem, StoreImage.putItem]
  | hook c =>
    cases k with
    | hook d => simp [sameItem, StoreImage.putItem_hooks_other dst src (Ne.symm other)]
    | _ => simp [sameItem, StoreImage.putItem]
  | classFields n =>
    dsimp only [StoreImage.putItem]
    split
    · rename_i d k' old new
      cases k with
      | classFields m =>
        have apart : n ≠ m := fun e => other (congrArg StoreKey.classFields e.symm)
        simp [sameItem, List.getElem?_set_ne apart]
      | classEdition m =>
        by_cases e : n = m
        · subst e
          simp [sameItem, old, List.getElem?_set_self']
        · simp [sameItem, List.getElem?_set_ne e]
      | _ => simp [sameItem]
    · exact sameItem_refl dst k
  | classEdition n =>
    dsimp only [StoreImage.putItem]
    split
    · rename_i d k' old new
      cases k with
      | classEdition m =>
        have apart : n ≠ m := fun e => other (congrArg StoreKey.classEdition e.symm)
        simp [sameItem, List.getElem?_set_ne apart]
      | classFields m =>
        by_cases e : n = m
        · subst e
          simp [sameItem, old, List.getElem?_set_self', ClassEntry.unedited]
        · simp [sameItem, List.getElem?_set_ne e]
      | _ => simp [sameItem]
    · exact sameItem_refl dst k
  | job n =>
    dsimp only [StoreImage.putItem]
    split
    · cases k with
      | job m =>
        have apart : n ≠ m := fun e => other (congrArg StoreKey.job e.symm)
        simp [sameItem, List.getElem?_set_ne apart]
      | _ => simp [sameItem]
    · exact sameItem_refl dst k
  | _ => cases k with
    | _ => simp_all [sameItem, StoreImage.putItem]


theorem ClassEntry.eq_of_parts {x y : ClassEntry} (fields : x.unedited = y.unedited) (edition : x.edition = y.edition) :
    x = y := by
  cases x
  cases y
  simp_all [ClassEntry.unedited]

/-- Settings equal under every number are equal. -/
theorem Settings.eq_of_get {t u : Settings} (same : ∀ n, t.get n = u.get n) : t = u := by
  cases t
  cases u
  have h (n : Nat) (_ : n ∈ settingNumbers) := same n
  simp only [settingNumbers, Config.settingCount, List.range, List.range.loop, List.map, List.forall_mem_cons, Settings.get,
    Nat.cast_inj] at h
  simp only [Settings.mk.injEq]
  tauto

theorem StoreImage.classes_of_items {a b : StoreImage} (fields : ∀ n, sameItem a b (.classFields n) = true)
    (editions : ∀ n, sameItem a b (.classEdition n) = true) : a.classes = b.classes := List.ext_getElem? fun n => by
  have unedited := fields n
  have edition := editions n
  cases left : a.classes[n]? <;> cases right : b.classes[n]? <;> simp_all [sameItem]
  exact ClassEntry.eq_of_parts unedited edition

/-- Images with the same items are the same. -/
theorem StoreImage.eq_of_items {a b : StoreImage} (same : ∀ k, sameItem a b k = true) : a = b := by
  have setup := same .setup
  have settings : a.settings = b.settings := Settings.eq_of_get fun n => by simpa [sameItem] using same (.setting n)
  have hookA := same (.hook .craneA)
  have hookB := same (.hook .craneB)
  have classes := StoreImage.classes_of_items (fun n => same (.classFields n)) fun n => same (.classEdition n)
  have jobs : a.jobs = b.jobs := List.ext_getElem? fun n => by simpa [sameItem] using same (.job n)
  have period := same .period
  have book := same .book
  have foul := same .foul
  have counter := same .counter
  have live := same .live
  have lost := same .lost
  have records := same .records
  obtain ⟨_, _, ⟨_, _⟩, _, _, _, _, _, _, _, ⟨_, _, _⟩⟩ := a
  obtain ⟨_, _, ⟨_, _⟩, _, _, _, _, _, _, _, ⟨_, _, _⟩⟩ := b
  simp_all [sameItem, PerCrane.get]


/-- The classes and the job slots of an image are as many as the store has room for (section 9.1). -/
structure StoreImage.full (img : StoreImage) : Prop where
  classes : img.classes.length = Config.classCount
  jobs : img.jobs.length = Config.jobCount

theorem mem_storeKeys_setting {n : Nat} (h : n ∈ settingNumbers) : .setting n ∈ storeKeys := by
  simp [storeKeys, earlyKeys, h]

theorem Settings.get_of_not_mem (t : Settings) {n : Nat} (h : n ∉ settingNumbers) : t.get n = 0 := by
  unfold Settings.get
  split <;> simp [settingNumbers, Config.settingCount] at h ⊢

/-- Full images that agree on every item of the store are the same. -/
theorem StoreImage.eq_of_storeKeys {a b : StoreImage} (fullA : a.full) (fullB : b.full)
    (same : ∀ k ∈ storeKeys, sameItem a b k = true) : a = b := by
  refine StoreImage.eq_of_items fun k => ?_
  by_cases listed : k ∈ storeKeys
  · exact same k listed
  cases k with
  | setting n =>
    have outside : n ∉ settingNumbers := fun inside => listed (mem_storeKeys_setting inside)
    simp [sameItem, Settings.get_of_not_mem _ outside]
  | classFields n | classEdition n =>
    have outside : Config.classCount ≤ n := by simpa [storeKeys, earlyKeys, lateKeys] using listed
    have noneA : a.classes[n]? = none := List.getElem?_eq_none (fullA.classes ▸ outside)
    have noneB : b.classes[n]? = none := List.getElem?_eq_none (fullB.classes ▸ outside)
    simp [sameItem, noneA, noneB]
  | job n =>
    have outside : Config.jobCount ≤ n := by simpa [storeKeys, earlyKeys, lateKeys] using listed
    have noneA : a.jobs[n]? = none := List.getElem?_eq_none (fullA.jobs ▸ outside)
    have noneB : b.jobs[n]? = none := List.getElem?_eq_none (fullB.jobs ▸ outside)
    simp [sameItem, noneA, noneB]
  | hook c => cases c <;> simp [storeKeys, earlyKeys] at listed
  | _ => simp [storeKeys, earlyKeys, lateKeys] at listed

/-! ### Writes made over a sound store -/

/-- An image with several items taken from another. -/
def StoreImage.putAll (dst src : StoreImage) (keys : List StoreKey) : StoreImage :=
  keys.foldl (fun d k => d.putItem src k) dst

theorem StoreImage.putAll_cons (dst src : StoreImage) (k : StoreKey) (ks : List StoreKey) :
    dst.putAll src (k :: ks) = (dst.putItem src k).putAll src ks := rfl

theorem StoreImage.putAll_sized (dst src : StoreImage) (keys : List StoreKey) : (dst.putAll src keys).sized dst := by
  induction keys generalizing dst with
  | nil => exact ⟨rfl, rfl⟩
  | cons k ks ih => exact (ih (dst.putItem src k)).trans (dst.putItem_sized src k)

/-- The items taken are as in the image they come from, and the others as they were. -/
theorem sameItem_putAll {dst src : StoreImage} (sized : dst.sized src) (keys : List StoreKey) (k : StoreKey) :
    sameItem (dst.putAll src keys) (if k ∈ keys then src else dst) k = true := by
  induction keys generalizing dst with
  | nil => exact sameItem_refl dst k
  | cons j js ih =>
    have rest := ih ((dst.putItem_sized src j).trans sized)
    rw [StoreImage.putAll_cons]
    by_cases later : k ∈ js
    · simpa [later] using rest
    · rw [if_neg later] at rest
      by_cases own : k = j
      · subst own
        simpa using sameItem_trans rest (sameItem_putItem sized k)
      · simpa [later, own] using sameItem_trans rest (sameItem_putItem_other dst src own)

/-- A write over a store with no word in error leaves none. -/
theorem flipsAfterWrite_nil (old src : StoreImage) (k : StoreKey) : flipsAfterWrite old src k [] = [] := by
  cases k <;> rfl

theorem Store.make_eq {st : Store} (sound : st.flips = []) (w : StepWrites) :
    st.make w = { image := st.image.putAll w.image w.keys, flips := [] } := by
  obtain ⟨img, flips⟩ := st
  subst sound
  change ({ image := img, flips := [] } : Store).writeAll w.image w.keys = _
  induction w.keys generalizing img with
  | nil => rfl
  | cons k ks ih =>
    have first : ({ image := img, flips := [] } : Store).write w.image k = { image := img.putItem w.image k, flips := [] } := by
      simp [Store.write, flipsAfterWrite_nil]
    simpa [Store.writeAll, StoreImage.putAll, first] using ih (img.putItem w.image k)

/-- The values from which an item was last written by writes made over the values `old`. -/
def lastImage (ws : List StepWrites) (k : StoreKey) (old : StoreImage) : StoreImage :=
  ws.foldl (fun found w => if k ∈ w.keys then w.image else found) old

theorem lastImage_append (us ws : List StepWrites) (k : StoreKey) (old : StoreImage) :
    lastImage (us ++ ws) k old = lastImage ws k (lastImage us k old) := List.foldl_append ..

theorem lastImage_cons (w : StepWrites) (ws : List StepWrites) (k : StoreKey) (old : StoreImage) :
    lastImage (w :: ws) k old = lastImage ws k (if k ∈ w.keys then w.image else old) := rfl

/-- The last write of an item, if any, is all that counts. -/
theorem lastImage_eq (ws : List StepWrites) (k : StoreKey) (old : StoreImage) :
    lastImage ws k old = (((ws.filter fun w => w.keys.contains k).getLast?).map StepWrites.image).getD old := by
  induction ws using List.reverseRecOn with
  | nil => rfl
  | append_singleton ws w ih =>
    rw [lastImage_append]
    by_cases writes : k ∈ w.keys
    · simp [lastImage, writes]
    · simpa [lastImage, writes] using ih

theorem State.lastWritten_eq (s : State) (k : StoreKey) :
    s.lastWritten k = lastImage (s.unsaved.flatMap DueStep.writes) k s.store.image := by
  rw [lastImage_eq, State.lastWritten]
  cases ((s.unsaved.flatMap DueStep.writes).filter fun w => w.keys.contains k).getLast? <;> rfl

/-- Writes made one after another leave a sound store sound and of its size. -/
theorem Store.foldl_make_shape {st : Store} (sound : st.flips = []) (ws : List StepWrites) :
    (ws.foldl Store.make st).flips = [] ∧ (ws.foldl Store.make st).image.sized st.image := by
  induction ws generalizing st with
  | nil => exact ⟨sound, rfl, rfl⟩
  | cons w ws ih =>
    obtain ⟨still, sized⟩ := ih (st := st.make w) (by rw [Store.make_eq sound])
    refine ⟨still, sized.trans ?_⟩
    rw [Store.make_eq sound]
    exact st.image.putAll_sized w.image w.keys

theorem sameItem_lastImage {a b : StoreImage} {k : StoreKey} (same : sameItem a b k = true) (ws : List StepWrites) :
    sameItem (lastImage ws k a) (lastImage ws k b) k = true := by
  induction ws generalizing a b with
  | nil => exact same
  | cons w ws ih =>
    rw [lastImage_cons, lastImage_cons]
    split
    · exact ih (sameItem_refl _ k)
    · exact ih same

/-- Writes made one after another leave each item as it was last written. -/
theorem sameItem_foldl_make {st : Store} (sound : st.flips = []) {ws : List StepWrites}
    (sized : ∀ w ∈ ws, st.image.sized w.image) (k : StoreKey) :
    sameItem (ws.foldl Store.make st).image (lastImage ws k st.image) k = true := by
  induction ws generalizing st with
  | nil => exact sameItem_refl _ k
  | cons w ws ih =>
    obtain ⟨first, rest⟩ := List.forall_mem_cons.mp sized
    have made := Store.make_eq sound w
    have kept : (st.make w).image.sized st.image := by
      rw [made]
      exact st.image.putAll_sized w.image w.keys
    have written : sameItem (st.make w).image (if k ∈ w.keys then w.image else st.image) k = true := by
      rw [made]
      exact sameItem_putAll first w.keys k
    exact sameItem_trans (ih (by rw [made]) fun v listed => kept.trans (rest v listed)) (sameItem_lastImage written ws)

/-- Writes that leave every item of the store as it is in an image leave a sound store that holds this image. -/
theorem Store.foldl_make_eq {st : Store} {img : StoreImage} {ws : List StepWrites} (sound : st.flips = []) (full : img.full)
    (sized : st.image.sized img) (writes : ∀ w ∈ ws, img.sized w.image)
    (last : ∀ k ∈ storeKeys, sameItem (lastImage ws k st.image) img k = true) :
    ws.foldl Store.make st = { image := img, flips := [] } := by
  obtain ⟨still, kept⟩ := Store.foldl_make_shape sound ws
  have fullMade : (ws.foldl Store.make st).image.full :=
    ⟨(kept.trans sized).classes.trans full.classes, (kept.trans sized).jobs.trans full.jobs⟩
  have image : (ws.foldl Store.make st).image = img := StoreImage.eq_of_storeKeys fullMade full fun k listed =>
    sameItem_trans (sameItem_foldl_make sound (fun w made => sized.trans (writes w made)) k) (last k listed)
  rw [← image, ← still]

/-- What a flush completes are the writes of its steps and then the write of the live-entry list (R193). -/
theorem FlushWork.finished_eq (w : FlushWork) : w.finished = (w.steps.flatten ++ [w.last]).foldl Store.make w.store := by
  rw [List.foldl_append, List.foldl_flatten]
  rfl

end Sys2Proof.Machine

namespace Sys2Proof.Machine

/-! ### The writes of a request bring every item that it changed (R190, R193) -/

theorem lastImage_nil (k : StoreKey) (old : StoreImage) : lastImage [] k old = old := rfl

/-- The last write of an item depends on the images and on which writes name the item alone. -/
theorem lastImage_map_congr {f g : StepWrites → StepWrites} {k : StoreKey} (images : ∀ w, (f w).image = (g w).image)
    (names : ∀ w, k ∈ (f w).keys ↔ k ∈ (g w).keys) (ws : List StepWrites) (old : StoreImage) :
    lastImage (ws.map f) k old = lastImage (ws.map g) k old := by
  induction ws generalizing old with
  | nil => rfl
  | cons w ws ih => simp only [List.map_cons, lastImage_cons, images, names, ih]

/-- Writes that name no item count for nothing. -/
theorem lastImage_filter_map {f : StepWrites → StepWrites} (none : ∀ w, w.keys = [] → (f w).keys = []) (ws : List StepWrites)
    (k : StoreKey) (old : StoreImage) :
    lastImage ((ws.filter fun w => !w.keys.isEmpty).map f) k old = lastImage (ws.map f) k old := by
  induction ws generalizing old with
  | nil => rfl
  | cons w ws ih =>
    by_cases empty : w.keys = []
    · simp [empty, lastImage_cons, none w empty, ih]
    · simp [empty, lastImage_cons, ih]

/-- Writes with the lost count that is due beside the list of records. -/
def StepWrites.overDue (due : List StoreKey) (w : StepWrites) : StepWrites := { w with keys := withDueLost due w.keys }

/-- The writes of a step, made over an image that holds the item as the step found it, leave the item as the step did. -/
theorem sameItem_stepWrites (due : List StoreKey) {old new found : StoreImage} {k : StoreKey} (listed : k ∈ storeKeys)
    (current : sameItem found old k = true) :
    sameItem (lastImage ((stepWrites old new).map (StepWrites.overDue due)) k found) new k = true := by
  rw [stepWrites, lastImage_filter_map fun w none => by simp [StepWrites.overDue, withDueLost, none]]
  simp only [List.map_cons, List.map_nil, lastImage_cons, lastImage_nil, StepWrites.overDue]
  split
  · exact sameItem_refl _ _
  · rename_i unwritten
    have second : k ∉ differing earlyKeys (new.unclosed old) new ++ differing lateKeys old new :=
      fun own => unwritten (mem_withDueLost.mpr (.inl own))
    obtain ⟨notEarly, notLate⟩ := not_or.mp (mt List.mem_append.mpr second)
    have closing (early : k ∈ earlyKeys) : sameItem (new.unclosed old) new k = true := by
      rw [differing_earlyKeys] at notEarly
      simpa [early] using notEarly
    split
    · rename_i written
      rcases mem_withDueLost.mp written with own | ⟨-, records, -⟩
      · exact closing (mem_differing own).1
      · exact absurd rfl (not_records_of_mem_earlyKeys (mem_differing records).1)
    · rename_i unwritten'
      have notFirst : k ∉ differing earlyKeys old (new.unclosed old) := fun own => unwritten' (mem_withDueLost.mpr (.inl own))
      rcases List.mem_append.mp listed with early | late
      · rw [differing_earlyKeys] at notFirst
        have first : sameItem old (new.unclosed old) k = true := by simpa [early] using notFirst
        exact sameItem_trans current (sameItem_trans first (closing early))
      · rw [differing_eq] at notLate
        have kept : sameItem old new k = true := by
          simp only [List.mem_filter, late, true_and, writesItem, Bool.or_eq_true, not_or, Bool.not_eq_true',
            Bool.not_eq_false] at notLate
          exact notLate.1
        exact sameItem_trans current kept

/-- The hook item that a request writes in any case, and alone (R60). -/
def hookWritten (r : Request) (p : Port) (body : List Byte) : Option Crane :=
  match r with
  | .zeroHook => p.crane
  | .setHook => hookOfCode (SetHookArgs.read body).hook
  | _ => none

/-- A request that writes a hook's item in any case leaves every other item. -/
def ownHookOnly (r : Request) (p : Port) (body : List Byte) (old new : StoreImage) : Prop :=
  r = .zeroHook ∨ r = .setHook → ∀ k, (∀ c ∈ hookWritten r p body, k ≠ .hook c) → sameItem old new k = true

/-- The write of one hook's item, or of none, leaves every item as a step did that changed nothing else. -/
theorem sameItem_hookWrite (due : List StoreKey) (c : Option Crane) {old new found : StoreImage} {k : StoreKey}
    (current : sameItem found old k = true) (own : (∀ d ∈ c, k ≠ .hook d) → sameItem old new k = true) :
    sameItem (lastImage (((c.map fun d => ({ image := new, keys := [.hook d] } : StepWrites)).toList).map
      (StepWrites.overDue due)) k found) new k = true := by
  cases c with
  | none => exact sameItem_trans current (own (by simp))
  | some d =>
    simp only [Option.map_some, Option.toList_some, List.map_cons, List.map_nil, lastImage_cons, lastImage_nil]
    split
    · exact sameItem_refl _ _
    · rename_i unwritten
      refine sameItem_trans current (own fun e mem => ?_)
      obtain rfl : d = e := by simpa using mem
      exact fun same => unwritten ((mem_withDueLost (due := due)).mpr (.inl (List.mem_singleton.mpr same)))

/-- The writes of a request, made over an image that holds an item as the request found it, leave the item as it did. -/
theorem sameItem_requestWrites (due : List StoreKey) (r : Request) (p : Port) (body : List Byte) {old new found : StoreImage}
    {k : StoreKey} (listed : k ∈ storeKeys) (current : sameItem found old k = true) (own : ownHookOnly r p body old new) :
    sameItem (lastImage ((requestWrites r p body old new).map (StepWrites.overDue due)) k found) new k = true := by
  cases r with
  | zeroHook => exact sameItem_hookWrite due _ current (own (.inl rfl) k)
  | setHook => exact sameItem_hookWrite due _ current (own (.inr rfl) k)
  | closeJob =>
    rw [requestWrites, List.map_map, lastImage_map_congr (g := StepWrites.overDue due)]
    · exact sameItem_stepWrites due listed current
    · exact fun _ => rfl
    · intro w
      have names (j : StoreKey) : j ∈ (w.keys.filter (· == .period)) ++ w.keys.filter (· != .period) ↔ j ∈ w.keys := by
        simp only [List.mem_append, List.mem_filter, beq_iff_eq, bne_iff_ne]
        tauto
      simp only [Function.comp_apply, StepWrites.overDue, mem_withDueLost, names]
  | _ => exact sameItem_stepWrites due listed current

/-- Every write of a request is made from values with as many classes and job slots as the request left. -/
theorem requestWrites_sized {r : Request} {p : Port} {body : List Byte} {old new : StoreImage} {w : StepWrites}
    (made : w ∈ requestWrites r p body old new) : new.sized w.image := by
  have step {v : StepWrites} (made : v ∈ stepWrites old new) : new.sized v.image := by
    rcases (mem_stepWrites made).2 with e | e
    · rw [e]
      exact ⟨rfl, (StoreImage.unclosed_jobs_length new old).symm⟩
    · rw [e]
      exact ⟨rfl, rfl⟩
  cases r with
  | zeroHook | setHook =>
    simp only [requestWrites, Option.mem_toList, Option.map_eq_some_iff] at made
    obtain ⟨c, -, rfl⟩ := made
    exact ⟨rfl, rfl⟩
  | closeJob =>
    obtain ⟨v, listed, rfl⟩ := List.mem_map.mp made
    exact (step listed :)
  | _ => exact step made

end Sys2Proof.Machine

namespace Sys2Proof.Machine

/-! ### What a request handed to its owning block leaves of the image and the slots -/

theorem State.setSlot_image (s : State) (p : Port) (slot : AnswerSlot) : (s.setSlot p slot).image = s.image := rfl

theorem State.endRequest_image (old new : State) : (old.endRequest new).image = new.image := by
  rw [State.endRequest_frame]
  rfl

theorem State.setHook_image (s : State) (c : Crane) (h : Hook) :
    ({ s with hooks := s.hooks.set c h } : State).image = { s.image with hooks := s.image.hooks.set c h.cal } := by
  cases c <;> rfl

/-- An image with one hook's values replaced has every other item as it was. -/
theorem sameItem_setHook (img : StoreImage) (cal : Calibration) {c : Crane} {k : StoreKey} (other : k ≠ .hook c) :
    sameItem img { img with hooks := img.hooks.set c cal } k = true := by
  cases k with
  | hook d =>
    have apart : d ≠ c := fun same => other (congrArg StoreKey.hook same)
    simp [sameItem, PerCrane.get_set_other _ _ apart]
  | _ => simp [sameItem]

/-- A taken ZERO HOOK changes the values of its hook alone. -/
theorem zeroHookRule_done {c : Crane} {s new : State} {ans : List Byte} (taken : zeroHookRule c s = .done ans new) :
    ∃ h : Hook, new.image = { s.image with hooks := s.image.hooks.set c h.cal } := by
  simp only [zeroHookRule] at taken
  split at taken
  · cases taken
  · split at taken
    · cases taken
    · cases taken
      exact ⟨_, State.setHook_image s c _⟩

/-- A taken SET HOOK changes the values of the hook that it names alone. -/
theorem setHookRule_done {body : List Byte} {s new : State} {ans : List Byte} (taken : setHookRule body s = .done ans new) :
    ∃ (c : Crane) (h : Hook), hookOfCode (SetHookArgs.read body).hook = some c ∧
      new.image = { s.image with hooks := s.image.hooks.set c h.cal } := by
  simp only [setHookRule] at taken
  split at taken
  · cases taken
  · split at taken
    · cases taken
    · split at taken
      · cases taken
      · cases taken
        exact ⟨_, _, ‹_›, State.setHook_image s _ _⟩

/-- A taken ZERO HOOK or SET HOOK changes the item of its hook alone. -/
theorem ownRule_hookImage {r : Request} {p : Port} {body ans : List Byte} {s new : State}
    (hooked : r = .zeroHook ∨ r = .setHook) (taken : ownRule r p body s = .done ans new) :
    ∃ (c : Crane) (h : Hook), hookWritten r p body = some c ∧
      new.image = { s.image with hooks := s.image.hooks.set c h.cal } := by
  rcases hooked with rfl | rfl
  · cases side : p.crane with
    | none => simp [ownRule, byCrane, side] at taken
    | some c =>
      simp only [ownRule, byCrane, side] at taken
      obtain ⟨h, image⟩ := zeroHookRule_done taken
      exact ⟨c, h, side, image⟩
  · exact setHookRule_done taken

theorem State.serve_ownHookOnly (s : State) (p : Port) (r : Request) (body : List Byte) :
    ownHookOnly r p body s.image (s.serve p r body).image := by
  intro hooked k other
  rcases s.serve_cases p r body with ⟨st, -, served⟩ | ⟨ans, -, served⟩ | ⟨ans, new, taken, served⟩
  · rw [served]
    exact sameItem_refl s.image k
  · rw [served]
    exact sameItem_refl s.image k
  · obtain ⟨c, h, hook, image⟩ := ownRule_hookImage hooked taken
    rw [served, State.setSlot_image, State.endRequest_image, image]
    exact sameItem_setHook s.image h.cal (other c hook)

/-- The slot of a served request is READY, and where it is not with OK nothing of the image changed. -/
theorem State.serve_slot (s : State) (p : Port) (r : Request) (body : List Byte) :
    ∃ st ans, ((s.serve p r body).engines.get p).slot = .ready st ans ∧
      (st ≠ .ok → (s.serve p r body).image = s.image) := by
  rcases s.serve_cases p r body with ⟨st, -, served⟩ | ⟨ans, -, served⟩ | ⟨ans, new, -, served⟩
  · exact ⟨st, [], by simp [served, State.setSlot], fun _ => by rw [served]; rfl⟩
  · exact ⟨.ok, ans, by simp [served, State.setSlot], fun bad => absurd rfl bad⟩
  · exact ⟨.ok, ans, by simp [served, State.setSlot], fun bad => absurd rfl bad⟩

/-! ### A flush that finds one request PENDING, or none (R193) -/

theorem settleAt_of_quiet {x : State × List (List StepWrites)} {p : Port}
    (quiet : (x.1.engines.get p).slot.isPending = false) : settleAt x p = x := by
  unfold settleAt State.settle settledWrites
  cases slot : (x.1.engines.get p).slot with
  | pending r body => simp [slot, AnswerSlot.isPending] at quiet
  | _ => simp

theorem foldl_settleAt_of_quiet {x : State × List (List StepWrites)} {ps : List Port}
    (quiet : ∀ p ∈ ps, (x.1.engines.get p).slot.isPending = false) : ps.foldl settleAt x = x := by
  induction ps with
  | nil => rfl
  | cons p ps ih =>
    obtain ⟨first, rest⟩ := List.forall_mem_cons.mp quiet
    rw [List.foldl_cons, settleAt_of_quiet first, ih rest]

theorem State.settleAll_of_quiet {s : State} (quiet : ∀ p, (s.engines.get p).slot.isPending = false) :
    s.settleAll = (s, s.unsaved.map DueStep.writes) := foldl_settleAt_of_quiet fun p _ => quiet p

/-- With one request PENDING, a flush makes its changes alone. -/
theorem State.settleAll_of_one {s : State} {p : Port} (others : ∀ q, q ≠ p → (s.engines.get q).slot.isPending = false)
    (after : ∀ q, ((s.settle p).engines.get q).slot.isPending = false) :
    s.settleAll = settleAt (s, s.unsaved.map DueStep.writes) p := by
  obtain ⟨first, last, order⟩ : ∃ first last : List Port,
      [Port.craneA, .craneB, .feed, .office] = first ++ p :: last := List.append_of_mem (by cases p <;> simp)
  have once : (first ++ p :: last).Nodup := order ▸ by decide
  have apart (q : Port) (mem : q ∈ first) : q ≠ p := by
    rintro rfl
    exact (List.nodup_append.mp once).2.2 q mem q List.mem_cons_self rfl
  rw [State.settleAll, order, List.foldl_append, List.foldl_cons,
    foldl_settleAt_of_quiet fun q mem => others q (apart q mem), foldl_settleAt_of_quiet fun q _ => after q]

theorem flatten_filter_singleton {α : Type} (xs : List α) : ([xs].filter fun ys => !ys.isEmpty).flatten = xs := by
  cases xs <;> simp

theorem settledWrites_flatten (due : List StoreKey) {s t : State} {p : Port} {r : Request} {body ans : List Byte} {st : Status}
    (pending : (s.engines.get p).slot = .pending r body) (ready : (t.engines.get p).slot = .ready st ans) :
    (settledWrites due s t p).flatten =
      if st = .ok then (requestWrites r p body s.image t.image).map (StepWrites.overDue due) else [] := by
  unfold settledWrites
  rw [pending, ready]
  cases st with
  | ok => exact flatten_filter_singleton _
  | _ => rfl

/-- The writes of a PENDING request whose changes a flush made leave every item as the request left it. -/
theorem sameItem_settledWrites (due : List StoreKey) {s : State} {p : Port} {r : Request} {body : List Byte}
    (pending : (s.engines.get p).slot = .pending r body) {found : StoreImage} {k : StoreKey} (listed : k ∈ storeKeys)
    (current : sameItem found s.image k = true) :
    sameItem (lastImage (settledWrites due s (s.serve p r body) p).flatten k found) (s.serve p r body).image k = true := by
  obtain ⟨st, ans, ready, kept⟩ := s.serve_slot p r body
  rw [settledWrites_flatten due pending ready]
  split
  · exact sameItem_requestWrites due r p body listed current (s.serve_ownHookOnly p r body)
  · rename_i refused
    rw [kept refused]
    exact current

theorem settledWrites_sized {due : List StoreKey} {s : State} {p : Port} {r : Request} {body : List Byte}
    (pending : (s.engines.get p).slot = .pending r body) {w : StepWrites}
    (made : w ∈ (settledWrites due s (s.serve p r body) p).flatten) : (s.serve p r body).image.sized w.image := by
  obtain ⟨st, ans, ready, -⟩ := s.serve_slot p r body
  rw [settledWrites_flatten due pending ready] at made
  split at made
  · obtain ⟨v, listed, rfl⟩ := List.mem_map.mp made
    exact (requestWrites_sized listed :)
  · cases made

/-- Writes outstanding that leave every item as the working copies stand leave, with the live-entry list after them, a sound store
that holds the working copies. -/
theorem State.flushWork_finished {t : State} {found : Store} {steps : List (List StepWrites)} (sound : found.flips = [])
    (full : t.image.full) (sized : found.image.sized t.image) (writes : ∀ w ∈ steps.flatten, t.image.sized w.image)
    (last : ∀ k ∈ storeKeys, sameItem (lastImage steps.flatten k found.image) t.image k = true) :
    (t.flushWork found steps).finished = { image := t.image, flips := [] } := by
  rw [FlushWork.finished_eq]
  refine Store.foldl_make_eq sound full sized (fun w made => ?_) fun k listed => ?_
  · rcases List.mem_append.mp made with early | final
    · exact writes w early
    · obtain rfl : w = _ := List.mem_singleton.mp final
      exact ⟨rfl, rfl⟩
  · change sameItem (lastImage (steps.flatten ++ [_]) k found.image) t.image k = true
    rw [lastImage_append, lastImage_cons, lastImage_nil]
    split
    · exact sameItem_refl _ k
    · exact last k listed

end Sys2Proof.Machine

namespace Sys2Proof.Machine

/-! ### What a restart reads of a store with no word in error (R195) -/

theorem Settings.put_get (t : Settings) (n : Nat) : t.put n (t.get n) = t := by
  unfold Settings.put
  split <;> rfl

theorem Settings.foldl_put_get (t : Settings) (ns : List Nat) : ns.foldl (fun u n => u.put n (t.get n)) t = t := by
  induction ns with
  | nil => rfl
  | cons n ns ih => rw [List.foldl_cons, Settings.put_get, ih]

theorem map_zipIdx_fst {α β : Type} (f : α → β) (xs : List α) : (xs.zipIdx.map fun p => f p.1) = xs.map f :=
  List.ext_getElem? fun n => by simp [List.getElem?_zipIdx, Function.comp_def]

section Sound

variable {st : Store} (sound : st.flips = [])

include sound

theorem Store.wordsIn_of_sound (k : StoreKey) (pos : Nat) : st.wordsIn k pos = [] := by simp [Store.wordsIn, sound]

theorem Store.readItem_of_sound {α : Type} (k : StoreKey) (v : α) : st.readItem k v = some v := by
  simp [Store.readItem, Store.wordsIn_of_sound sound]

theorem Store.readSetting_of_sound (n : Nat) : st.readSetting n = some (st.image.settings.get n) := by
  rw [Store.readSetting, Store.readItem_of_sound sound, Store.misread_of_sound st sound]

theorem Store.readSome_of_sound (ns : List Nat) : st.readSome ns = st.image.settings := by
  simp only [Store.readSome, Store.readSetting_of_sound sound, Option.getD_some]
  exact Settings.foldl_put_get _ ns

theorem Store.readEntry_of_sound {α : Type} (k : StoreKey) (pos : Nat) (v : α) : st.readEntry k pos v = some v := by
  simp [Store.readEntry, Store.wordsIn_of_sound sound, readWords]

theorem Store.readList_of_sound {α : Type} (k : StoreKey) (xs : List α) : st.readList k xs = xs.map some := by
  simp only [Store.readList, Store.readEntry_of_sound sound]
  exact map_zipIdx_fst some xs

theorem Store.readClass_of_sound (n : Nat) (k : ClassEntry) : st.readClass n k = (some k, some k.edition) := by
  simp [Store.readClass, Store.readItem_of_sound sound]

end Sound

theorem badPositions_map_some {α : Type} (xs : List α) : badPositions (xs.map some) = [] := by
  exact List.filterMap_eq_nil_iff.mpr (List.forall_mem_zipIdx'.mpr fun i inside => by simp)

/-- A list of which no item read damaged adds nothing to the damaged item list. -/
theorem noDamage {α : Type} (region : Nat) {xs : List α} {bad : α → Bool} (good : ∀ x ∈ xs, bad x = false) :
    (xs.zipIdx.flatMap fun p => damageEntry region p.2 (bad p.1)) = [] :=
  List.flatMap_eq_nil_iff.mpr (List.forall_mem_zipIdx'.mpr fun i inside => by
    rw [good _ (List.getElem_mem inside)]
    rfl)

/-- An image as a restart leaves it that finds no word of the store in error (R136, R152, R174; section 9.1). -/
def StoreImage.restored (img : StoreImage) : StoreImage :=
  let jobs := img.jobs.map fun j => { j with openDips := 0 }
  { img with
    settings := img.settings.upright
    jobs := jobs
    period := prunePeriod (img.period.take 64) jobs
    foul := img.foul.take 16
    live := img.live.take 3
    records := { img.records with
      items := img.records.items.take Config.recordRoom, lost := min img.records.lost Config.max16 } }

theorem Store.restore_of_sound {st : Store} (sound : st.flips = []) :
    st.restore = { image := st.image.restored, damaged := [] } := by
  simp only [Store.restore, Store.readItem_of_sound sound, Store.readClass_of_sound sound, Store.readList_of_sound sound,
    Store.readSettings, Store.readSome_of_sound sound, Store.readSetting_of_sound sound, Store.misread_of_sound st sound,
    map_zipIdx_fst (fun k : ClassEntry => (some k, some k.edition)), map_zipIdx_fst (some : JobSlot → Option JobSlot)]
  rw [noDamage (bad := classBad) 3 (by simp [classBad]), noDamage (bad := Option.isNone) 4 (by simp)]
  simp [-List.map_take, StoreImage.restored, recordsRestored, badPositions_map_some, damageEntry, Function.comp_def,
    slotRestored, classRestored]

end Sys2Proof.Machine

namespace Sys2Proof.Machine

/-! ### Restart notices (R198, step 3) -/

/-- The notices of a restart's end, in the order of R186, and the judgement of the feed-demand line. -/
def State.restartNotices (s : State) (count : Nat) : State :=
  ((((s.noticeDefaulted .craneA).noticeDefaulted .craneB).noticeInvalid).noticeDamage count).judgeFeed

theorem State.released_eq (s : State) (count : Nat) :
    s.released count =
      (if s.inputs.stopLow then (s.restartNotices count).fallStop else s.restartNotices count).judgeLines := rfl

/-- A state with other inputs, records and store, which the restart notices do not read. -/
def State.besides (s : State) (i : Inputs) (q : RecordQueue) (st : Store) : State :=
  { s with inputs := i, records := q, store := st }

section Besides

variable (s : State) (i : Inputs) (q : RecordQueue) (st : Store)

theorem State.noticeDefaulted_besides (c : Crane) :
    (s.besides i q st).noticeDefaulted c = (s.noticeDefaulted c).besides i q st := by
  unfold State.noticeDefaulted
  rw [apply_ite fun t : State => t.besides i q st]
  rfl

theorem State.noticeInvalid_besides : (s.besides i q st).noticeInvalid = s.noticeInvalid.besides i q st := by
  unfold State.noticeInvalid
  rw [apply_ite fun t : State => t.besides i q st]
  rfl

theorem State.noticeDamage_besides (count : Nat) :
    (s.besides i q st).noticeDamage count = (s.noticeDamage count).besides i q st := by
  unfold State.noticeDamage
  rw [apply_ite fun t : State => t.besides i q st]
  rfl

theorem State.judgeFeed_besides : (s.besides i q st).judgeFeed = s.judgeFeed.besides i q st := by
  unfold State.judgeFeed
  rw [apply_ite fun t : State => t.besides i q st]
  rfl

theorem State.restartNotices_besides (count : Nat) :
    (s.besides i q st).restartNotices count = (s.restartNotices count).besides i q st := by
  simp only [State.restartNotices, State.noticeDefaulted_besides, State.noticeInvalid_besides, State.noticeDamage_besides,
    State.judgeFeed_besides]

end Besides

theorem State.noticeDefaulted_frame (s : State) (c : Crane) :
    s.noticeDefaulted c = { s with notices := (s.noticeDefaulted c).notices } := by
  unfold State.noticeDefaulted
  split <;> rfl

theorem State.noticeInvalid_frame (s : State) : s.noticeInvalid = { s with notices := s.noticeInvalid.notices } := by
  unfold State.noticeInvalid
  split <;> rfl

theorem State.noticeDamage_frame (s : State) (count : Nat) :
    s.noticeDamage count = { s with notices := (s.noticeDamage count).notices } := by
  unfold State.noticeDamage
  split <;> rfl

theorem State.judgeFeed_frame (s : State) :
    s.judgeFeed = { s with notices := s.judgeFeed.notices, lines := s.judgeFeed.lines } := by
  unfold State.judgeFeed
  split <;> rfl

/-- The restart notices change the notice queues and the lines alone. -/
theorem State.restartNotices_frame (s : State) (count : Nat) :
    s.restartNotices count =
      { s with notices := (s.restartNotices count).notices, lines := (s.restartNotices count).lines } := by
  unfold State.restartNotices
  rw [State.judgeFeed_frame, State.noticeDamage_frame, State.noticeInvalid_frame, State.noticeDefaulted_frame _ .craneB,
    State.noticeDefaulted_frame s .craneA]


theorem State.fallStop_besides (s : State) (i : Inputs) (q : RecordQueue) (st : Store) :
    (s.besides i q st).fallStop = s.fallStop.besides i q st := by
  by_cases stopped : s.mode = .stopped
  · have there : (s.besides i q st).mode = .stopped := stopped
    simp only [State.fallStop, if_pos stopped, if_pos there]
  · have there : (s.besides i q st).mode ≠ .stopped := stopped
    rw [State.fallStop_of_going stopped, State.fallStop_of_going there]
    rfl

theorem State.restartNotices_inputs (s : State) (count : Nat) : (s.restartNotices count).inputs = s.inputs := by
  rw [State.restartNotices_frame]

theorem State.fallStop_inputs (s : State) : s.fallStop.inputs = s.inputs := by
  unfold State.fallStop
  split
  · rfl
  · simp

theorem State.released_inputs (s : State) (count : Nat) : (s.released count).inputs = s.inputs := by
  rw [State.released_eq, State.judgeLines_inputs]
  split
  · rw [State.fallStop_inputs, State.restartNotices_inputs]
  · exact s.restartNotices_inputs count

/-- The end of a restart over other records and another store differs in these and in the lines alone. -/
theorem State.released_besides (s : State) (q : RecordQueue) (st : Store) (count : Nat) :
    (s.besides s.inputs q st).released count =
      { s.released count with
        records := q, store := st, lines := ((s.besides s.inputs q st).released count).lines } := by
  have steps : (s.besides s.inputs q st).released count =
      { s.released count with
        inputs := s.inputs, records := q, store := st, lines := ((s.besides s.inputs q st).released count).lines } := by
    have level : (s.besides s.inputs q st).inputs.stopLow = s.inputs.stopLow := rfl
    simp only [State.released_eq, level, State.restartNotices_besides, State.fallStop_besides]
    cases s.inputs.stopLow <;> rfl
  refine steps.trans ?_
  have inputs := s.released_inputs count
  generalize ((s.besides s.inputs q st).released count).lines = lines
  generalize s.released count = released at inputs ⊢
  rw [← inputs]

/-- The stop input's fall at the end of a restart finds the kettle HELD with both contexts idle (R164, R198). -/
theorem State.fallStop_of_restarted {s : State} (held : s.mode = .held)
    (idle : s.cranes = ⟨CraneContext.idle none, CraneContext.idle none⟩) :
    s.fallStop = { s with
      mode := .stopped
      notices :=
        { craneA := s.notices.craneA.push (.stopped .held), craneB := s.notices.craneB.push (.stopped .held)
          feed := s.notices.feed.push (.stopped .held), office := s.notices.office.push (.stopped .held) } } := by
  have going : s.mode ≠ .stopped := by simp [held]
  rw [State.fallStop_of_going going, held, idle, show (CraneContext.idle none).stopped = CraneContext.idle none from rfl, ← idle]
  simp [State.notifyAll, State.notify, PerPort.set, PerPort.get]


/-! ### A whole restart over a store with no word in error (R195, R198) -/

/-- What a restart brings the store to that finds no word of it in error: the live entries abandoned into the RESTART record. -/
def StoreImage.ended (img : StoreImage) : StoreImage :=
  { img.restored with records := img.restored.records.push (.restart img.restored.live []), live := [] }

theorem State.restartWhole_of_sound {s : State} (sound : s.store.flips = []) :
    s.restartWhole = (s.revived s.store.image.ended []).released 0 := by
  rw [State.restartWhole, Store.restore_of_sound sound]
  rfl

/-- A restart reads the store, the inputs and the queue of commands alone. -/
theorem State.restartWhole_congr {s t : State} (restore : s.store.restore = t.store.restore) (inputs : s.inputs = t.inputs)
    (pending : s.pending = t.pending) : s.restartWhole = t.restartWhole := by
  simp only [State.restartWhole, State.revived, restore, inputs, pending]

/-- Items that fit their regions and are sound are restored as they stand, but for the open-dip counts (R136, R194). -/
theorem State.image_restored {s : State} (fits : s.restorable) :
    s.image.restored = { s.image with jobs := s.jobs.map fun j => { j with openDips := 0 } } := by
  obtain ⟨-, -, -, -, foul, live, period, ⟨records, lost⟩, window, named, -⟩ := fits
  have upright : s.settings.upright = s.settings := if_neg (by omega)
  have pruned : prunePeriod s.period (s.jobs.map fun j => { j with openDips := 0 }) = s.period := by
    refine List.filter_eq_self.mpr fun e listed => ?_
    have state := named e listed
    simp only [State.job, List.getD_eq_getElem?_getD, List.getElem?_map] at state ⊢
    cases slot : s.jobs[e.slot]? <;> simp_all
  simp only [StoreImage.restored, State.image, upright, List.take_of_length_le foul, List.take_of_length_le live,
    List.take_of_length_le period, List.take_of_length_le records, min_eq_left lost, pruned]

/-- What a restart brings back of a stopped part: its durable state, HELD, whatever was in flight (R198, R199). -/
def State.broughtBack (s u : State) : Prop :=
  u.phase = .running ∧ u.mode = .held ∧ u.setup = s.setup ∧ u.settings = s.settings ∧
    (∀ c : Crane, (u.hooks.get c).cal = (s.hooks.get c).cal ∧ (u.cranes.get c).state = .idle ∧
      (u.cranes.get c).lapseMark = none ∧ (u.timers.get c).state = .stopped ∧ (u.watches.get c).phase = .inactive) ∧
    u.feed.reserved = false ∧ u.classes = s.classes ∧ u.jobs = s.jobs.map (fun j => { j with openDips := 0 }) ∧
    u.period = s.period ∧ u.book = s.book ∧ u.foul = s.foul ∧ u.counter = s.counter ∧ u.live = [] ∧
    u.records = s.records.push (.restart s.live []) ∧ u.damage = [] ∧ u.store.image = u.image ∧ u.linesLawful

/-- The restart of a part whose store holds the items of a state that fit their regions brings that state back, and every slot
comes up EMPTY (R198, R205). -/
theorem State.restartWhole_broughtBack {s t : State} (fits : s.restorable) (store : t.store = { image := s.image, flips := [] })
    (high : t.inputs.stopLow = false) :
    s.broughtBack t.restartWhole ∧ ∀ q : Port, (t.restartWhole.engines.get q).slot = .empty := by
  have lawful := t.restartWhole_linesLawful
  have sound : t.store.flips = [] := by rw [store]
  have image : t.store.image.ended = { s.image with
      jobs := s.jobs.map fun j => { j with openDips := 0 }, live := []
      records := s.records.push (.restart s.live []) } := by
    rw [store, StoreImage.ended, State.image_restored fits]
    rfl
  have whole : t.restartWhole =
      ((t.revived t.store.image.ended []).restartNotices 0).judgeLines := by
    rw [State.restartWhole_of_sound sound, State.released_eq]
    exact congrArg State.judgeLines (if_neg (by simp [State.revived, high]))
  rw [State.restartNotices_frame, image] at whole
  rw [whole] at lawful ⊢
  refine ⟨⟨rfl, rfl, rfl, rfl, fun c => ?_, rfl, rfl, rfl, rfl, rfl, rfl, rfl, rfl, rfl, rfl, rfl, lawful⟩, fun q => ?_⟩
  · cases c <;> exact ⟨rfl, rfl, rfl, rfl, rfl⟩
  · cases q <;> rfl

end Sys2Proof.Machine

namespace Sys2Proof.Machine

/-! ### The causes of a flush and of the restart after it (R193, R194) -/

/-- The inputs of a part with its supply up, its kettle going and no reset. -/
def Inputs.clear : Inputs := { stopLow := false, supFailLow := false, resetAsserted := false, supplyLost := false }

/-- The flushes, each with a restart that the release of its input or a rise of the supply begins. -/
def restartCauses : List (Instr × Instr) :=
  [(.supplyFailFall, .supplyFailRise [] none), (.supplyFailFall, .powerOn [] none), (.resetAssert, .resetRelease [] none)]

/-- A stopped part whose inputs let it restart restarts. -/
theorem State.tryRestart_of_ready {s : State} (stopped : s.phase = .flushed) (reset : s.inputs.resetAsserted = false)
    (fail : s.inputs.supFailLow = false) (supply : s.inputs.supplyLost = false) (upsets : List Upset) (cut : Option RestartCut) :
    s.tryRestart upsets cut = s.restart upsets cut := by
  simp [State.tryRestart, State.mayRestart, stopped, reset, fail, supply]

/-- A rise of the supply-fail input restarts a stopped part whose other inputs let it (R194). -/
theorem exec_supplyFailRise_ready {t : State} (stopped : t.phase = .flushed) (reset : t.inputs.resetAsserted = false)
    (supply : t.inputs.supplyLost = false) :
    exec (.supplyFailRise [] none) t = .next (t.relink { t.inputs with supFailLow := false } t.engines).restartWhole :=
  congrArg Host.Outcome.next
    (State.tryRestart_of_ready (s := t.relink { t.inputs with supFailLow := false } t.engines) stopped reset rfl supply [] none)

/-- A release of the reset input restarts a stopped part whose other inputs let it (R194). -/
theorem exec_resetRelease_ready {t : State} (stopped : t.phase = .flushed) (fail : t.inputs.supFailLow = false)
    (supply : t.inputs.supplyLost = false) :
    exec (.resetRelease [] none) t = .next (t.relink { t.inputs with resetAsserted := false } t.engines).restartWhole :=
  congrArg Host.Outcome.next
    (State.tryRestart_of_ready (s := t.relink { t.inputs with resetAsserted := false } t.engines) stopped rfl fail supply [] none)

/-- Power-on restarts a stopped part that is not held in reset (R194). -/
theorem exec_powerOn_ready {t : State} (stopped : t.phase = .flushed) (reset : t.inputs.resetAsserted = false)
    (cut : Option RestartCut) :
    exec (.powerOn [] cut) t =
      .next ((t.relink { t.inputs with supFailLow := false, supplyLost := false } t.engines).restart [] cut) := by
  have notRunning : t.phase ≠ .running := by simp [stopped]
  exact congrArg Host.Outcome.next ((if_neg notRunning).trans (State.tryRestart_of_ready
    (s := t.relink { t.inputs with supFailLow := false, supplyLost := false } t.engines) stopped reset rfl rfl [] cut))

/-- Each of these causes flushes the part with one input changed, whose release restarts it. -/
theorem exec_restartCauses {down up : Instr} (cause : (down, up) ∈ restartCauses) {s : State}
    (clear : s.inputs = Inputs.clear) :
    ∃ i : Inputs, exec down s = .next (s.relink i s.engines).flushPart ∧
      ∀ t : State, t.phase = .flushed → t.inputs = i →
        exec up t = .next (t.relink Inputs.clear t.engines).restartWhole := by
  simp only [restartCauses, List.mem_cons, Prod.mk.injEq, List.not_mem_nil, or_false] at cause
  rcases cause with ⟨rfl, rfl⟩ | ⟨rfl, rfl⟩ | ⟨rfl, rfl⟩
  · refine ⟨{ s.inputs with supFailLow := true }, rfl, fun t stopped inputs => ?_⟩
    rw [clear] at inputs
    rw [exec_supplyFailRise_ready stopped (by rw [inputs]; rfl) (by rw [inputs]; rfl), inputs]
    rfl
  · refine ⟨{ s.inputs with supFailLow := true }, rfl, fun t stopped inputs => ?_⟩
    rw [clear] at inputs
    rw [exec_powerOn_ready stopped (by rw [inputs]; rfl), inputs]
    rfl
  · refine ⟨{ s.inputs with resetAsserted := true }, rfl, fun t stopped inputs => ?_⟩
    rw [clear] at inputs
    rw [exec_resetRelease_ready stopped (by rw [inputs]; rfl) (by rw [inputs]; rfl), inputs]
    rfl

/-! ### The two flushes -/

theorem State.image_full {s : State} (fits : s.restorable) : s.image.full := by
  obtain ⟨-, -, classes, jobs, -⟩ := fits
  exact ⟨classes, jobs⟩

/-- The flush of a running part. -/
theorem State.flushPart_of_running {s : State} (run : s.phase = .running) :
    s.flushPart = s.settleAll.1.flushed (s.settleAll.1.flushWork s.store s.settleAll.2) := if_pos run

theorem flatten_map_writes (steps : List DueStep) : (steps.map DueStep.writes).flatten = steps.flatMap DueStep.writes :=
  List.flatMap_def.symm

/-- A flush that finds no request PENDING writes every item that was outstanding: the store holds every working copy. -/
theorem State.flush_of_quiet {s : State} (run : s.phase = .running) (current : s.storeCurrent) (fits : s.restorable)
    (i : Inputs) :
    ∃ w : FlushWork, (s.relink i s.engines).flushPart = (s.relink i s.engines).flushed w ∧
      w.finished = { image := s.image, flips := [] } := by
  obtain ⟨⟨classes, jobs⟩, due, last⟩ := current run
  obtain ⟨sound, quiet, -⟩ := id fits
  refine ⟨(s.relink i s.engines).flushWork s.store (s.unsaved.map DueStep.writes), ?_, ?_⟩
  · rw [State.flushPart_of_running (s := s.relink i s.engines) run, State.settleAll_of_quiet (s := s.relink i s.engines) quiet]
    rfl
  · refine State.flushWork_finished (t := s.relink i s.engines) sound (State.image_full fits :) ⟨classes, jobs⟩
      (fun w outstanding => ?_) fun k listed => ?_
    · rw [flatten_map_writes] at outstanding
      obtain ⟨wide, long⟩ := due w outstanding
      exact ⟨wide.symm, long.symm⟩
    · rw [flatten_map_writes, ← State.lastWritten_eq]
      exact last k listed


theorem JobMove.jobs_length {m n : JobTable} (move : JobMove m n) : n.jobs.length = m.jobs.length := by
  cases move with
  | replaced => exact List.length_set
  | credited | shortened => rfl

/-- Changes of the job table add no slot and take none away. -/
theorem State.jobPath.jobs_length {s t : State} (path : s.jobPath t) : t.jobs.length = s.jobs.length := by
  change t.jobTable.jobs.length = s.jobTable.jobs.length
  unfold State.jobPath at path
  generalize t.jobTable = last at path ⊢
  induction path with
  | refl => rfl
  | tail _ move ih => exact move.jobs_length.trans ih

theorem State.settle_of_pending {s : State} {p : Port} {r : Request} {body : List Byte}
    (pending : (s.engines.get p).slot = .pending r body) : s.settle p = s.serve p r body := by rw [State.settle, pending]

/-- A part with one request PENDING and other inputs. -/
def State.waitingAt (s : State) (p : Port) (r : Request) (body : List Byte) (i : Inputs) : State :=
  (s.setSlot p (.pending r body)).relink i (s.setSlot p (.pending r body)).engines

section Waiting

variable (s : State) (p : Port) (r : Request) (body : List Byte) (i : Inputs)

theorem State.waitingAt_slot : ((s.waitingAt p r body i).engines.get p).slot = .pending r body := by
  simp [State.waitingAt, State.setSlot]

/-- A request makes the changes that it would have made on its write, PENDING or not, whatever the inputs. -/
theorem State.serve_waitingAt :
    (s.waitingAt p r body i).serve p r body = (s.serve p r body).relink i (s.serve p r body).engines := by
  obtain ⟨-, links⟩ := s.serve_links body p r
  change (s.relink i _).serve p r body = _
  rw [State.serve_relink]
  conv_rhs => rw [links]
  simp [State.setSlot, PerPort.set_set]

/-- A request adds no class and no job slot. -/
theorem State.serve_sized : s.image.sized (s.serve p r body).image :=
  ⟨(s.serve_keepsRanges p r body).classCount.symm, (s.serve_jobPath p r body).jobs_length.symm⟩

variable {s}

/-- No slot is PENDING once the one request that was is served. -/
theorem State.serve_quiet (quiet : ∀ q, (s.engines.get q).slot.isPending = false) (q : Port) :
    ((s.serve p r body).engines.get q).slot.isPending = false := by
  by_cases own : q = p
  · obtain ⟨st, ans, ready, -⟩ := s.serve_slot p r body
    rw [own, ready]
    rfl
  · rw [(s.serve_links body p r).2, PerPort.get_set_other _ _ own]
    exact quiet q

/-- A flush that finds one request PENDING makes its changes, which join the writes outstanding. -/
theorem State.settleAll_waitingAt (quiet : ∀ q, (s.engines.get q).slot.isPending = false) :
    ∃ due : List StoreKey, (s.waitingAt p r body i).settleAll =
      ((s.waitingAt p r body i).serve p r body,
        s.unsaved.map DueStep.writes ++
          settledWrites due (s.waitingAt p r body i) ((s.waitingAt p r body i).serve p r body) p) := by
  have pending := s.waitingAt_slot p r body i
  have settled := State.settle_of_pending pending
  have others (q : Port) (other : q ≠ p) : ((s.waitingAt p r body i).engines.get q).slot.isPending = false := by
    simpa [State.waitingAt, State.setSlot, PerPort.get_set_other _ _ other] using quiet q
  have after (q : Port) : (((s.waitingAt p r body i).settle p).engines.get q).slot.isPending = false := by
    rw [settled, State.serve_waitingAt]
    exact State.serve_quiet p r body quiet q
  rw [State.settleAll_of_one others after, settleAt]
  dsimp only
  rw [settled]
  exact ⟨_, rfl⟩

/-- A flush that finds one request PENDING makes its changes and every write, its own and those that were outstanding. -/
theorem State.flush_of_waiting (run : s.phase = .running) (current : s.storeCurrent) (sound : s.store.flips = [])
    (quiet : ∀ q, (s.engines.get q).slot.isPending = false) (full : (s.serve p r body).image.full) :
    ∃ w : FlushWork, (s.waitingAt p r body i).flushPart =
        ((s.serve p r body).relink i (s.serve p r body).engines).flushed w ∧
      w.finished = { image := (s.serve p r body).image, flips := [] } := by
  obtain ⟨⟨classes, jobs⟩, outstanding, last⟩ := current run
  have pending := s.waitingAt_slot p r body i
  have sized := s.serve_sized p r body
  obtain ⟨due, all⟩ := State.settleAll_waitingAt p r body i quiet
  have image : ((s.waitingAt p r body i).serve p r body).image = (s.serve p r body).image := by
    rw [State.serve_waitingAt]
    rfl
  have running : (s.waitingAt p r body i).phase = .running := run
  refine ⟨_, by rw [State.flushPart_of_running running, all, ← State.serve_waitingAt], ?_⟩
  rw [← image] at full sized ⊢
  have room : s.store.image.sized s.image := ⟨classes, jobs⟩
  refine State.flushWork_finished sound full (room.trans sized) (fun w made => ?_) fun k listed => ?_
  · rw [List.flatten_append, flatten_map_writes] at made
    rcases List.mem_append.mp made with early | own
    · obtain ⟨wide, long⟩ := outstanding w early
      exact sized.symm.trans ⟨wide.symm, long.symm⟩
    · exact settledWrites_sized pending own
  · rw [List.flatten_append, lastImage_append, flatten_map_writes]
    have found : sameItem (lastImage (s.unsaved.flatMap DueStep.writes) k s.store.image) s.image k = true := by
      rw [← State.lastWritten_eq]
      exact last k listed
    exact sameItem_settledWrites due pending listed found

end Waiting

end Sys2Proof.Machine

namespace Sys2Proof.Machine

/-! ### A flush and the restart after it -/

theorem State.flushed_restarts {s w : State} {f : FlushWork} {up : Instr} (fits : s.restorable)
    (finished : f.finished = { image := s.image, flips := [] })
    (restarts : ∀ t : State, t.phase = .flushed → t.inputs = w.inputs →
      exec up t = .next (t.relink Inputs.clear t.engines).restartWhole) :
    ∃ u : State, exec up (w.flushed f) = .next u ∧ s.broughtBack u ∧ ∀ q : Port, (u.engines.get q).slot = .empty :=
  ⟨_, restarts (w.flushed f) rfl rfl, State.restartWhole_broughtBack fits finished rfl⟩

/-- A flush of a part with no request PENDING, and the restart after it (R193, R198). -/
theorem State.flush_and_restart {s : State} {down up : Instr} (run : s.phase = .running) (current : s.storeCurrent)
    (fits : s.restorable) (cause : (down, up) ∈ restartCauses) :
    ∃ t : State, exec down s = .next t ∧ t.phase = .flushed ∧ t.lines = Lines.down ∧
      t.store = { image := s.image, flips := [] } ∧ t.unsaved = [] ∧ ∃ u : State, exec up t = .next u ∧ s.broughtBack u := by
  obtain ⟨-, -, -, -, -, -, -, -, -, -, clear⟩ := id fits
  obtain ⟨i, flush, restarts⟩ := exec_restartCauses cause clear
  obtain ⟨f, flushed, finished⟩ := State.flush_of_quiet run current fits i
  obtain ⟨u, restart, brought, -⟩ := State.flushed_restarts (w := s.relink i s.engines) fits finished restarts
  exact ⟨_, flush.trans (congrArg Host.Outcome.next flushed), rfl, rfl, finished, rfl, u, restart, brought⟩

theorem PerPort.dropTransfers_set (es : PerPort Engine) (p : Port) :
    (es.set p (es.get p).dropTransfer).dropTransfers = es.dropTransfers := by
  cases p <;> rfl

/-- A flush of a part with one request PENDING, and the restart after it: the request is made, and its answer dropped (R193,
R205). -/
theorem State.flush_and_restart_pending {s : State} {down up : Instr} {p : Port} {r : Request} {body : List Byte}
    (run : s.phase = .running) (current : s.storeCurrent) (sound : s.store.flips = [])
    (quiet : ∀ q, (s.engines.get q).slot.isPending = false) (permitted : r.roles.permits p = true)
    (length : r.lengthOk body.length = true) (cause : (down, up) ∈ restartCauses)
    (fits : (s.writeRequest p r body).restorable) :
    ∃ t : State, exec down (s.setSlot p (.pending r body)) = .next t ∧ t.phase = .flushed ∧
      t.store = { image := (s.writeRequest p r body).image, flips := [] } ∧
      t = { s.writeRequest p r body with
        phase := .flushed, inputs := t.inputs, engines := (s.writeRequest p r body).engines.dropTransfers, lines := Lines.down
        store := t.store, unsaved := [], flush := t.flush } ∧
      ∃ u : State, exec up t = .next u ∧ (s.writeRequest p r body).broughtBack u ∧
        ∀ q : Port, (u.engines.get q).slot = .empty := by
  have takes : s.takes p = true := by simp [State.takes, run, quiet p]
  have written := State.writeRequest_serves takes permitted length
  obtain ⟨-, -, -, -, -, -, -, -, -, -, clear⟩ := id fits
  have clearBefore : s.inputs = Inputs.clear := by
    rw [written] at clear
    exact (s.serve_links body p r).1.symm.trans clear
  have full : (s.serve p r body).image.full := by
    have made := State.image_full fits
    rw [written] at made
    exact made
  obtain ⟨i, flush, restarts⟩ := exec_restartCauses cause (s := s.setSlot p (.pending r body)) clearBefore
  obtain ⟨f, flushed, finished⟩ := State.flush_of_waiting p r body i run current sound quiet full
  have store : f.finished = { image := (s.writeRequest p r body).image, flips := [] } := by
    rw [finished, written]
    rfl
  obtain ⟨u, restart⟩ := State.flushed_restarts (w := (s.serve p r body).relink i (s.serve p r body).engines) fits store
    restarts
  refine ⟨_, flush.trans (congrArg Host.Outcome.next flushed), rfl, store, ?_, u, restart⟩
  have engines : (s.writeRequest p r body).engines.dropTransfers = (s.serve p r body).engines.dropTransfers := by
    rw [written]
    exact PerPort.dropTransfers_set _ p
  rw [engines, written]
  rfl

/-! ### A restart with the stop input low (R198, step 4) -/

/-- Every call line is driven where every port has a notice waiting (R211). -/
theorem State.callLines_of_notices {s : State} (waiting : ∀ p, (s.notices.get p).items ≠ []) (p : Port) :
    s.lineLevels.call.get p = true := by
  have level (q : Port) : s.callLevel q = true := by simp [State.callLevel, waiting q]
  cases p <;> exact level _

theorem NoticeQueue.push_items_ne_nil (q : NoticeQueue) (n : Notice) : (q.push n).items ≠ [] := by
  unfold NoticeQueue.push
  split
  · simp
  · rename_i full
    intro empty
    have none : q.items = [] := empty
    simp [none, Config.noticeRoom] at full


/-- The stop input's fall at the end of a restart, and its lines (R164, R198). -/
theorem State.fallStop_after_restart {s : State} (low : s.inputs.stopLow = true) (held : s.mode = .held)
    (idle : s.cranes = ⟨CraneContext.idle none, CraneContext.idle none⟩) :
    let u := s.fallStop.judgeLines
    let v := (s.withStop false).judgeLines
    u = { v with
        mode := .stopped, inputs := { v.inputs with stopLow := true }, lines := u.lines
        notices :=
          { craneA := v.notices.craneA.push (.stopped .held), craneB := v.notices.craneB.push (.stopped .held)
            feed := v.notices.feed.push (.stopped .held), office := v.notices.office.push (.stopped .held) } } ∧
      u.lines.permit = ⟨false, false⟩ ∧ u.lines.wdraw = ⟨false, false⟩ ∧ ∀ p : Port, u.lines.call.get p = true := by
  have inputs : s.inputs = { (s.withStop false).inputs with stopLow := true } := by
    rw [← low]
    rfl
  simp only
  rw [State.fallStop_of_restarted held idle]
  refine ⟨?_, rfl, ?_, State.callLines_of_notices fun p => ?_⟩
  · simpa [State.judgeLines, State.withStop] using inputs
  · simp [State.judgeLines, State.lineLevels, State.demandOf, idle, PerCrane.get, CraneContext.idle, Demand.empty, Demand.raised]
  · cases p <;> exact NoticeQueue.push_items_ne_nil _ _


theorem State.restartNotices_withStop (s : State) (b : Bool) (count : Nat) :
    (s.withStop b).restartNotices count = (s.restartNotices count).withStop b := by
  refine (s.restartNotices_besides { s.inputs with stopLow := b } s.records s.store count).trans ?_
  rw [State.restartNotices_frame]
  rfl

/-- The end of a restart with the stop input low, and the same end with the input high. -/
theorem State.released_of_low {s : State} (low : s.inputs.stopLow = true) (count : Nat) :
    s.released count = (s.restartNotices count).fallStop.judgeLines ∧
      (s.withStop false).released count = ((s.restartNotices count).withStop false).judgeLines := by
  constructor
  · rw [State.released_eq, if_pos low]
  · rw [State.released_eq, State.restartNotices_withStop]
    rfl

theorem State.restartWhole_eq (s : State) :
    s.restartWhole =
      (s.revived s.store.restore.ended s.store.restore.damaged).released s.store.restore.damaged.length := rfl

theorem State.restartWhole_withStop (s : State) (b : Bool) :
    (s.withStop b).restartWhole =
      ((s.revived s.store.restore.ended s.store.restore.damaged).withStop b).released s.store.restore.damaged.length := by
  have store : (s.withStop b).store = s.store := rfl
  have revived (img : StoreImage) (d : List DamagedItem) : (s.withStop b).revived img d = (s.revived img d).withStop b := rfl
  rw [State.restartWhole_eq, store, revived]

/-- A restart with the stop input low comes up as the one with the input high, and then takes its fall (R198). -/
theorem State.restartWhole_of_low {s : State} (low : s.inputs.stopLow = true) :
    ∃ t : State, t.inputs.stopLow = true ∧ t.mode = .held ∧
      t.cranes = ⟨CraneContext.idle none, CraneContext.idle none⟩ ∧
      s.restartWhole = t.fallStop.judgeLines ∧ (s.withStop false).restartWhole = (t.withStop false).judgeLines := by
  rw [State.restartWhole_eq, State.restartWhole_withStop]
  generalize revived : s.revived s.store.restore.ended s.store.restore.damaged = r
  have inputs : r.inputs.stopLow = true := by rw [← revived]; exact low
  have held : r.mode = .held := by rw [← revived]; rfl
  have idle : r.cranes = ⟨CraneContext.idle none, CraneContext.idle none⟩ := by rw [← revived]; rfl
  obtain ⟨fallen, risen⟩ := State.released_of_low inputs s.store.restore.damaged.length
  have frame := r.restartNotices_frame s.store.restore.damaged.length
  exact ⟨_, by rw [frame]; exact inputs, by rw [frame]; exact held, by rw [frame]; exact idle, fallen, risen⟩


/-- Power-on with the stop input low, and with it high (R164, R198). -/
theorem State.powerOn_stopLow {s : State} (stopped : s.phase = .flushed) (reset : s.inputs.resetAsserted = false)
    (low : s.inputs.stopLow = true) :
    ∃ u v : State, exec (.powerOn [] none) s = .next u ∧
      exec (.powerOn [] none) { s with inputs := { s.inputs with stopLow := false } } = .next v ∧ v.mode = .held ∧
      u = { v with
        mode := .stopped, inputs := { v.inputs with stopLow := true }, lines := u.lines
        notices :=
          { craneA := v.notices.craneA.push (.stopped .held), craneB := v.notices.craneB.push (.stopped .held)
            feed := v.notices.feed.push (.stopped .held), office := v.notices.office.push (.stopped .held) } } ∧
      u.lines.permit = ⟨false, false⟩ ∧ u.lines.wdraw = ⟨false, false⟩ ∧ ∀ p : Port, u.lines.call.get p = true := by
  obtain ⟨t, lowAfter, held, idle, fallen, risen⟩ := State.restartWhole_of_low
    (s := s.relink { s.inputs with supFailLow := false, supplyLost := false } s.engines) low
  have below := (exec_powerOn_ready stopped reset none).trans (congrArg Host.Outcome.next fallen)
  have above := (exec_powerOn_ready (t := s.withStop false) stopped reset none).trans (congrArg Host.Outcome.next risen)
  exact ⟨_, _, below, above, held, State.fallStop_after_restart lowAfter held idle⟩

end Sys2Proof.Machine

namespace Sys2Proof.Machine

/-! ### A restart stopped where it stands, of a store with no word in error (R194, log 17) -/

/-- A list with no word in error is left by a restart that has read part of it. -/
theorem rereadList_of_sound {α : Type} {xs : List (Marked α)} (sound : ∀ x ∈ xs, x.2 = []) (places size words : Nat) :
    rereadList xs places size words = xs := by
  have taken : ((xs.take places).filterMap fun x => (readWords x.1 x.2).map fun v => (v, ([] : List BadWord))) =
      xs.take places := by
    rw [List.filterMap_congr (g := some), List.filterMap_some]
    rintro ⟨v, words⟩ listed
    obtain rfl : words = [] := sound _ (List.mem_of_mem_take listed)
    simp [readWords]
  have whole := List.take_append_drop places xs
  rw [rereadList, taken]
  cases rest : xs.drop places with
  | nil => simpa [rest] using whole
  | cons x ys =>
    obtain ⟨v, bad⟩ := x
    obtain rfl : bad = [] := sound _ (List.mem_of_mem_drop (rest ▸ List.mem_cons_self))
    simpa [rest, rereadEntry, readWords] using whole

section Repaired

variable {st : Store} (sound : st.flips = [])

include sound

theorem Store.marked_of_sound {α : Type} (k : StoreKey) (xs : List α) : st.marked k xs = xs.map fun x => (x, []) := by
  simp only [Store.marked, Store.wordsIn_of_sound sound]
  exact map_zipIdx_fst (fun x => (x, [])) xs

end Repaired

theorem badWordsOf_sound {α : Type} (xs : List α) : badWordsOf (xs.map fun x => (x, ([] : List BadWord))) = [] :=
  List.flatMap_eq_nil_iff.mpr (List.forall_mem_zipIdx'.mpr fun i inside => by simp)

/-- An image with another lost count. -/
def StoreImage.withLost (img : StoreImage) (lost : Nat) : StoreImage :=
  { img with records := { img.records with lost := lost } }

/-- The lists of a store with no word in error are left by a restart stopped where it stands, but for a lost count above its
bound. -/
theorem Store.repairLists_of_sound {st : Store} (sound : st.flips = []) (after words : Nat) :
    ∃ lost, (lost = st.image.records.lost ∨ lost = min st.image.records.lost Config.max16) ∧
      st.repairLists after words =
        { image := st.image.withLost lost, flips := [] } := by
  have clean {α : Type} (xs : List α) : ∀ x ∈ xs.map (fun x => (x, ([] : List BadWord))), x.2 = [] := by simp
  simp only [Store.repairLists, Store.marked_of_sound sound, rereadList_of_sound (clean _), Store.setFoul, Store.setRecords,
    badWordsOf_sound, sound, Store.readItem_of_sound sound, Store.misread_of_sound st sound, List.length_map]
  split
  · refine ⟨_, .inr rfl, ?_⟩
    simp [Function.comp_def, StoreImage.withLost]
  · refine ⟨_, .inl rfl, ?_⟩
    simp [Function.comp_def, StoreImage.withLost]


theorem Store.readPart_of_sound {st : Store} (sound : st.flips = []) (r : StoreImage) (it : RestartItem) (words : Nat) :
    st.readPart r it words = st := by
  obtain ⟨img, flips⟩ := st
  subst sound
  simp [Store.readPart, Store.rereadWords]

/-- The values that a restart gives the items of a store with no word in error: the window of the temperature is judged last. -/
theorem Store.restoredBy_of_sound {st : Store} (sound : st.flips = []) (done : List RestartItem) :
    st.restoredBy done =
      if settingNumbers.all (fun n => done.any fun it => it.keys == [.setting n]) then st.image.restored
      else { st.image.restored with settings := st.image.settings } := by
  rw [Store.restoredBy, Store.restore_of_sound sound, Store.readSome_of_sound sound]

/-- The items, other than the places of a list, that a restart has read before it is stopped. -/
def singlesBefore (after : Nat) : List StoreKey :=
  ((restartItems.take after).flatMap RestartItem.keys).filter fun k => !([.foul, .lost, .records] : List StoreKey).contains k

/-- A restart stopped where it stands has given the items that it read before their restored values. -/
theorem Store.repairedTo_of_sound {st : Store} (sound : st.flips = []) (after words : Nat) :
    ∃ lost, (lost = st.image.records.lost ∨ lost = min st.image.records.lost Config.max16) ∧
      st.repairedTo after words =
        { image := (st.image.withLost lost).putAll
            (st.restoredBy (restartItems.take after)) (singlesBefore after)
          flips := [] } := by
  obtain ⟨lost, count, lists⟩ := Store.repairLists_of_sound sound after words
  refine ⟨lost, count, ?_⟩
  simp only [Store.repairedTo, lists, Store.repairKeys]
  split
  · split
    · rfl
    · exact Store.readPart_of_sound rfl _ _ _
  · rfl

theorem mem_singlesBefore_setting {after n : Nat}
    (read : (restartItems.take after).any (fun it => it.keys == [.setting n]) = true) : .setting n ∈ singlesBefore after := by
  obtain ⟨it, listed, keys⟩ := List.any_eq_true.mp read
  have named : .setting n ∈ it.keys := by rw [eq_of_beq keys]; exact List.mem_singleton_self _
  exact List.mem_filter.mpr ⟨List.mem_flatMap.mpr ⟨it, listed, named⟩, by simp⟩

/-! ### Restart reads a repaired store as it would have read the store before -/

theorem Settings.upright_upright (t : Settings) : t.upright.upright = t.upright := by
  by_cases inverted : t.tempHigh < t.tempLow
  · simp [Settings.upright, inverted, Settings.default]
  · simp [Settings.upright, inverted]

theorem prunePeriod_idem (period : List PeriodEntry) (jobs : List JobSlot) :
    prunePeriod ((prunePeriod (period.take 64) jobs).take 64) jobs = prunePeriod (period.take 64) jobs := by
  have short : (prunePeriod (period.take 64) jobs).length ≤ 64 :=
    (List.length_filter_le _ _).trans ((List.length_take_le 64 period))
  rw [List.take_of_length_le short]
  simp [prunePeriod, List.filter_filter]


/-- An image of which a restart has given some items their restored values, and left the others. -/
structure StoreImage.partRestored (c img : StoreImage) : Prop where
  setup : c.setup = img.setup
  settings : c.settings = img.settings ∨ c.settings = img.settings.upright
  hooks : c.hooks = img.hooks
  classes : c.classes = img.classes
  jobs : (c.jobs.map fun j => { j with openDips := 0 }) = img.jobs.map fun j => { j with openDips := 0 }
  period : c.period = img.period ∨ c.period = img.restored.period
  book : c.book = img.book
  foul : c.foul.take 16 = img.foul.take 16
  counter : c.counter = img.counter
  live : c.live.take 3 = img.live.take 3
  items : c.records.items.take Config.recordRoom = img.records.items.take Config.recordRoom
  lost : min c.records.lost Config.max16 = min img.records.lost Config.max16
  offered : c.records.offered = img.records.offered

theorem StoreImage.partRestored.restored {c img : StoreImage} (part : c.partRestored img) : c.restored = img.restored := by
  have settings : c.settings.upright = img.settings.upright := by
    rcases part.settings with e | e
    · rw [e]
    · rw [e, Settings.upright_upright]
  have period (jobs : List JobSlot) (same : jobs = img.jobs.map fun j => { j with openDips := 0 }) :
      prunePeriod (c.period.take 64) jobs = prunePeriod (img.period.take 64) jobs := by
    rcases part.period with e | e
    · rw [e]
    · rw [e, same]
      exact prunePeriod_idem img.period _
  simp only [StoreImage.restored, part.setup, settings, part.hooks, part.classes, part.jobs, period _ rfl, part.book, part.foul,
    part.counter, part.live, part.items, part.lost, part.offered]

/-- An image whose every item is as restored, or as found but for the lost count, and whose settings are as found or with the
window judged. -/
theorem StoreImage.partRestored_of_either {c img : StoreImage} {t : Settings} {lost : Nat}
    (either : ∀ k, sameItem c { img.restored with settings := t } k = true ∨
      sameItem c (img.withLost lost) k = true)
    (count : lost = img.records.lost ∨ lost = min img.records.lost Config.max16)
    (settings : c.settings = img.settings ∨ c.settings = img.settings.upright) : c.partRestored img where
  setup := by simpa [sameItem, StoreImage.restored, StoreImage.withLost] using either .setup
  settings := settings
  hooks := by
    have a := either (.hook .craneA)
    have b := either (.hook .craneB)
    simp only [sameItem, StoreImage.restored, StoreImage.withLost, PerCrane.get, beq_iff_eq, or_self] at a b
    cases h : c.hooks
    cases h' : img.hooks
    simp_all
  classes := StoreImage.classes_of_items 
    (fun n => by simpa [sameItem, StoreImage.restored, StoreImage.withLost] using either (.classFields n))
    fun n => by simpa [sameItem, StoreImage.restored, StoreImage.withLost] using either (.classEdition n)
  jobs := List.ext_getElem? fun n => by
    have slot := either (.job n)
    simp only [sameItem, StoreImage.restored, StoreImage.withLost, beq_iff_eq, List.getElem?_map] at slot ⊢
    rcases slot with e | e <;> simp [e, Function.comp_def]
  period := by
    have list := either .period
    simp only [sameItem, beq_iff_eq] at list
    exact list.symm
  book := by simpa [sameItem, StoreImage.restored, StoreImage.withLost] using either .book
  foul := by
    have list := either .foul
    simp only [sameItem, StoreImage.restored, StoreImage.withLost, beq_iff_eq] at list
    rcases list with e | e <;> simp [e]
  counter := by simpa [sameItem, StoreImage.restored, StoreImage.withLost] using either .counter
  live := by
    have list := either .live
    simp only [sameItem, StoreImage.restored, StoreImage.withLost, beq_iff_eq] at list
    rcases list with e | e <;> simp [e]
  items := by
    have list := either .records
    simp only [sameItem, StoreImage.restored, StoreImage.withLost, beq_iff_eq] at list
    rcases list with e | e <;> simp [e]
  lost := by
    have queue := either .lost
    simp only [sameItem, StoreImage.restored, StoreImage.withLost, Bool.and_eq_true, beq_iff_eq] at queue
    rcases queue with ⟨e, -⟩ | ⟨e, -⟩ <;> rcases count with e' | e' <;> simp [e, e']
  offered := by
    have queue := either .lost
    simp only [sameItem, StoreImage.restored, StoreImage.withLost, Bool.and_eq_true, beq_iff_eq] at queue
    rcases queue with ⟨-, e⟩ | ⟨-, e⟩ <;> exact e

section PutAll

variable {st : Store} (sound : st.flips = [])

include sound

theorem Store.restoredBy_sized (done : List RestartItem) : st.image.sized (st.restoredBy done) := by
  rw [Store.restoredBy_of_sound sound]
  split <;> exact ⟨rfl, List.length_map _ |>.symm⟩

/-- The settings of a store that a restart stopped where it stands has repaired are those found, or those with the window judged. -/
theorem Store.repaired_settings {c : StoreImage} {after : Nat} {l : StoreImage} (found : l.settings = st.image.settings)
    (items : ∀ k, sameItem c (if k ∈ singlesBefore after then st.restoredBy (restartItems.take after) else l) k = true) :
    c.settings = st.image.settings ∨ c.settings = st.image.settings.upright := by
  have value (n : Nat) := items (.setting n)
  rw [Store.restoredBy_of_sound sound] at value
  by_cases judged : settingNumbers.all fun n => (restartItems.take after).any fun it => it.keys == [.setting n]
  · refine .inr (Settings.eq_of_get fun n => ?_)
    by_cases listed : n ∈ settingNumbers
    · have read := mem_singlesBefore_setting (List.all_eq_true.mp judged n listed)
      have put := value n
      rw [if_pos read, if_pos judged] at put
      simpa [sameItem, StoreImage.restored, StoreImage.withLost] using put
    · rw [Settings.get_of_not_mem _ listed, Settings.get_of_not_mem _ listed]
  · refine .inl (Settings.eq_of_get fun n => ?_)
    have put := value n
    rw [if_neg judged] at put
    split at put <;> simpa [sameItem, found] using put

end PutAll

/-- A restart over what a restart stopped where it stands left reads what the restart before would have read (R194). -/
theorem Store.repairedTo_restore {st : Store} (sound : st.flips = []) (after words : Nat) :
    (st.repairedTo after words).restore = st.restore := by
  obtain ⟨lost, count, repaired⟩ := Store.repairedTo_of_sound sound after words
  have sized := Store.restoredBy_sized sound (restartItems.take after)
  have items := sameItem_putAll (dst := st.image.withLost lost)
    ⟨sized.classes, sized.jobs⟩ (singlesBefore after)
  rw [repaired, Store.restore_of_sound rfl, Store.restore_of_sound sound]
  have settings := Store.repaired_settings sound (l := st.image.withLost lost) rfl items
  obtain ⟨t, given⟩ : ∃ t, st.restoredBy (restartItems.take after) = { st.image.restored with settings := t } := by
    rw [Store.restoredBy_of_sound sound]
    split <;> exact ⟨_, rfl⟩
  generalize (st.image.withLost lost).putAll _ _ = c at items settings ⊢
  have either (k : StoreKey) : sameItem c { st.image.restored with settings := t } k = true ∨
      sameItem c (st.image.withLost lost) k = true := by
    have item := items k
    rw [given] at item
    split at item
    · exact .inl item
    · exact .inr item
  rw [(StoreImage.partRestored_of_either either count settings).restored]

end Sys2Proof.Machine

namespace Sys2Proof.Machine

/-! ### A restart cut short, and the restart after it (R194) -/

/-- The inputs that may cut a restart short, each with the release that begins the next one. -/
def cutCauses : List (CutCause × Instr) := [(.supplyFail, .supplyFailRise [] none), (.reset, .resetRelease [] none)]

/-- The release of the input that cut a restart short begins another. -/
theorem exec_after_cut {c : CutCause} {up : Instr} (cause : (c, up) ∈ cutCauses) {t : State} {i : Inputs}
    (stopped : t.phase = .flushed) (reset : i.resetAsserted = false) (fail : i.supFailLow = false) (supply : i.supplyLost = false)
    (inputs : t.inputs = i.cutBy c) : exec up t = .next (t.relink i t.engines).restartWhole := by
  obtain ⟨stop, _, _, _⟩ := i
  simp only at reset fail supply
  subst reset fail supply
  simp only [cutCauses, List.mem_cons, Prod.mk.injEq, List.not_mem_nil, or_false] at cause
  rcases cause with ⟨rfl, rfl⟩ | ⟨rfl, rfl⟩
  · rw [exec_supplyFailRise_ready stopped (by rw [inputs]; rfl) (by rw [inputs]; rfl), inputs]
    rfl
  · rw [exec_resetRelease_ready stopped (by rw [inputs]; rfl) (by rw [inputs]; rfl), inputs]
    rfl

theorem RecordQueue.push_bounded {q : RecordQueue} (b : RecordBody) (bounded : q.bounded) : (q.push b).bounded := by
  obtain ⟨items, lost⟩ := bounded
  unfold RecordQueue.push
  split
  · rename_i room
    exact ⟨by simpa using room, Nat.zero_le _⟩
  · exact ⟨items, min_le_right _ _⟩

/-- Items within their room, with the window upright, no dip open and the period list pruned, are restored as they stand. -/
theorem StoreImage.restored_of_settled {img : StoreImage} (settings : img.settings.upright = img.settings)
    (jobs : (img.jobs.map fun j => { j with openDips := 0 }) = img.jobs)
    (period : prunePeriod (img.period.take 64) img.jobs = img.period) (foul : img.foul.take 16 = img.foul)
    (live : img.live.take 3 = img.live) (records : img.records.bounded) : img.restored = img := by
  obtain ⟨items, lost⟩ := records
  simp only [StoreImage.restored, settings, jobs, period, foul, live, List.take_of_length_le items, min_eq_left lost]

/-- What a restart has brought to its end is restored as it stands (R198). -/
theorem StoreImage.ended_restored (img : StoreImage) : img.ended.restored = img.ended := by
  have bounded : img.restored.records.bounded := ⟨by simp [StoreImage.restored], min_le_right _ _⟩
  refine StoreImage.restored_of_settled (Settings.upright_upright img.settings) ?_ (prunePeriod_idem img.period _) ?_ rfl
    (RecordQueue.push_bounded _ bounded)
  · simp [StoreImage.ended, StoreImage.restored, Function.comp_def]
  · simp [StoreImage.ended, StoreImage.restored]

theorem State.fallStop_records (s : State) : s.fallStop.records = s.records := by
  unfold State.fallStop
  split
  · rfl
  · simp

theorem State.released_records (s : State) (count : Nat) : (s.released count).records = s.records := by
  rw [State.released_eq, State.judgeLines_records]
  split
  · rw [State.fallStop_records, State.restartNotices_frame]
  · rw [State.restartNotices_frame]

theorem StoreImage.ended_ended (img : StoreImage) :
    img.ended.ended = { img.ended with records := img.ended.records.push (.restart [] []) } := by
  change ({ img.ended.restored with
    records := img.ended.restored.records.push (.restart img.ended.restored.live []), live := [] } : StoreImage) = _
  rw [StoreImage.ended_restored]
  rfl

/-- A restart after one that was cut once its RESTART record was queued abandons nothing, into a RESTART record of its own (R194,
R198). -/
theorem State.restartWhole_after_end {s t : State} (sound : s.store.flips = []) (inputs : t.inputs = s.inputs)
    (pending : t.pending = s.pending) (ended : t.store = { image := s.store.image.ended, flips := [] }) :
    t.restartWhole.records = s.restartWhole.records.push (.restart [] []) ∧
      t.restartWhole = { s.restartWhole with
        records := t.restartWhole.records, store := t.restartWhole.store, lines := t.restartWhole.lines } := by
  have soundAfter : t.store.flips = [] := by rw [ended]
  have again : t.revived t.store.image.ended [] =
      (s.revived s.store.image.ended []).besides (s.revived s.store.image.ended []).inputs
        (s.store.image.ended.records.push (.restart [] [])) { image := s.store.image.ended.ended, flips := [] } := by
    rw [ended, StoreImage.ended_ended]
    simp only [State.revived, State.besides, inputs, pending]
  rw [State.restartWhole_of_sound sound, State.restartWhole_of_sound soundAfter, again, State.released_besides]
  exact ⟨congrArg (RecordQueue.push · _) (State.released_records (s.revived s.store.image.ended []) 0).symm, rfl⟩


/-- A restart cut short: the store as far as it had come, and the input low that cut it. -/
def State.cutShort (s : State) (cut : RestartCut) : State :=
  { s with store := s.store.cutAt cut.after cut.words, inputs := s.inputs.cutBy cut.cause, flush := none }

/-- A stopped part as power-on finds it whose inputs let it restart. -/
def State.powered (s : State) : State := s.relink { s.inputs with supFailLow := false, supplyLost := false } s.engines

theorem Inputs.cutBy_powered {i : Inputs} (reset : i.resetAsserted = false) (c : CutCause) :
    ({ i with supFailLow := false, supplyLost := false } : Inputs).cutBy c =
      { i with
        supplyLost := false, supFailLow := decide (c = .supplyFail), resetAsserted := decide (c = .reset) } := by
  cases c <;> simp [Inputs.cutBy, reset]

/-- A restart cut short leaves the part stopped, and the restart after it brings up what the whole one would have (R194). -/
theorem State.restart_cut {s : State} {cut : RestartCut} {up : Instr} (stopped : s.phase = .flushed) (sound : s.store.flips = [])
    (reset : s.inputs.resetAsserted = false) (cause : (cut.cause, up) ∈ cutCauses) :
    ∃ t : State, exec (.powerOn [] (some cut)) s = .next t ∧ t.phase = .flushed ∧
      t = { s with
        store := t.store, flush := none
        inputs :=
          { s.inputs with
            supplyLost := false
            supFailLow := decide (cut.cause = .supplyFail), resetAsserted := decide (cut.cause = .reset) } } ∧
      (cut.after ≤ restartItems.length → exec up t = exec (.powerOn [] none) s) ∧
      (restartItems.length < cut.after → ∃ u v : State, exec (.powerOn [] none) s = .next v ∧ exec up t = .next u ∧
        u.records = v.records.push (.restart [] []) ∧
        u = { v with records := u.records, store := u.store, lines := u.lines }) := by
  have whole : exec (.powerOn [] none) s = .next s.powered.restartWhole := exec_powerOn_ready stopped reset none
  have next : exec up (s.powered.cutShort cut) =
      .next ((s.powered.cutShort cut).relink s.powered.inputs (s.powered.cutShort cut).engines).restartWhole :=
    exec_after_cut cause (t := s.powered.cutShort cut) stopped reset rfl rfl rfl
  refine ⟨s.powered.cutShort cut, exec_powerOn_ready stopped reset (some cut), stopped, ?_, fun early => ?_, fun late => ?_⟩
  · rw [← Inputs.cutBy_powered reset]
    rfl
  · rw [next, whole]
    refine congrArg Host.Outcome.next (State.restartWhole_congr ?_ rfl rfl)
    change (s.store.cutAt cut.after cut.words).restore = s.store.restore
    rw [Store.cutAt, if_pos early, Store.repairedTo_restore sound]
  · refine ⟨_, _, whole, next, State.restartWhole_after_end sound rfl rfl ?_⟩
    change s.store.cutAt cut.after cut.words = { image := s.store.image.ended, flips := [] }
    rw [Store.cutAt, if_neg (by omega), Store.restore_of_sound sound]
    rfl

/-- Settles O59: a flush without a PENDING request and one with it, the stop input at the restart, and the cuts. -/
theorem a_flush_and_a_restart_keep_every_durable_state : Obligations.A_flush_and_a_restart_keep_every_durable_state :=
  ⟨fun _ _ _ run current fits cause => State.flush_and_restart run current fits cause,
    fun _ _ _ _ _ _ run current sound quiet permitted length cause fits =>
      State.flush_and_restart_pending run current sound quiet permitted length cause fits,
    fun _ stopped reset low => State.powerOn_stopLow stopped reset low,
    fun _ _ _ stopped sound reset cause => State.restart_cut stopped sound reset cause⟩

end Sys2Proof.Machine

namespace Sys2Proof.Machine

/-! ### What a step does to the queues, beside its store writes -/

/-- The record queue and the notice queues, with what a rule leaves to the end of its step: the store, the writes due, and how many
classes and job slots the part works on. -/
structure QueueView where
  phase : Phase
  store : Store
  unsaved : List DueStep
  classCount : Nat
  jobCount : Nat
  records : RecordQueue
  notices : PerPort NoticeQueue

/-- The queues of a state with what its rules leave to the end of a step. -/
def State.queueView (s : State) : QueueView :=
  { phase := s.phase, store := s.store, unsaved := s.unsaved, classCount := s.classes.length, jobCount := s.jobs.length
    records := s.records, notices := s.notices }

/-- One entry offered to a queue: a record (R178) or a notice (R185). -/
inductive QueueMove (m : QueueView) : QueueView → Prop
  | recorded (b : RecordBody) : QueueMove m { m with records := m.records.push b }
  | noticed (p : Port) (n : Notice) : QueueMove m { m with notices := m.notices.set p ((m.notices.get p).push n) }

/-- From the queues of one state to those of another by entries offered alone. -/
def State.queuePath (s t : State) : Prop := Relation.ReflTransGen QueueMove s.queueView t.queueView

theorem State.queuePath_refl (s : State) : s.queuePath s := Relation.ReflTransGen.refl

namespace State.queuePath

variable {s t u : State}

/-- A change of other fields. -/
theorem kept (h : s.queuePath t) (same : u.queueView = t.queueView) : s.queuePath u := by
  rw [State.queuePath, same]
  exact h

/-- What every entry offered keeps, a path keeps. -/
theorem keeps {P : QueueView → Prop} (keep : ∀ m m', QueueMove m m' → P m → P m') (h : s.queuePath t) (hs : P s.queueView) :
    P t.queueView := by
  unfold State.queuePath at h
  generalize t.queueView = m at h
  induction h with
  | refl => exact hs
  | tail _ move ih => exact keep _ _ move ih

/-- The phase, the store, the writes due and the numbers of classes and job slots stay. -/
theorem frame (h : s.queuePath t) :
    t.phase = s.phase ∧ t.store = s.store ∧ t.unsaved = s.unsaved ∧ t.classes.length = s.classes.length ∧
      t.jobs.length = s.jobs.length := by
  refine h.keeps (P := fun m => m.phase = s.phase ∧ m.store = s.store ∧ m.unsaved = s.unsaved ∧
    m.classCount = s.classes.length ∧ m.jobCount = s.jobs.length) (fun m m' move same => ?_) ⟨rfl, rfl, rfl, rfl, rfl⟩
  cases move <;> exact same

theorem queueRecord (h : s.queuePath t) (b : RecordBody) : s.queuePath (t.queueRecord b) := h.tail (.recorded b)

theorem notify (h : s.queuePath t) (p : Port) (n : Notice) : s.queuePath (t.notify p n) := h.tail (.noticed p n)

theorem notifyAll (h : s.queuePath t) (n : Notice) : s.queuePath (t.notifyAll n) :=
  (((h.notify .craneA n).notify .craneB n).notify .feed n).notify .office n

theorem notifyEntry (h : s.queuePath t) (c : Crane) (tandem : Bool) (n : Notice) : s.queuePath (t.notifyEntry c tandem n) := by
  unfold State.notifyEntry
  split
  · exact (h.notify .craneA n).notify .craneB n
  · exact h.notify c.port n

theorem idleCranes (h : s.queuePath t) (c : Crane) (tandem : Bool) (mark : Option Nat) :
    s.queuePath (t.idleCranes c tandem mark) := h.kept (by simp [State.queueView])

theorem dropLive (h : s.queuePath t) (n : Nat) : s.queuePath (t.dropLive n) := h.kept rfl

/-- The lanes of an entry freed and its contexts idle again (R15, R18, R48). -/
theorem freed (h : s.queuePath t) (n : Nat) (c : Crane) (tandem : Bool) (mark : Option Nat) :
    s.queuePath (({ t with lanes := freeEntry t.lanes n } : State).idleCranes c tandem mark) := by
  refine (h.kept ?_).idleCranes c tandem mark
  rfl

theorem modifyJob (h : s.queuePath t) (i : Nat) (f : JobSlot → JobSlot) : s.queuePath (t.modifyJob i f) :=
  h.kept (by simp [State.queueView, State.modifyJob])

theorem judgeFeed (h : s.queuePath t) : s.queuePath t.judgeFeed := by
  unfold State.judgeFeed
  split
  · exact (h.kept (u := { t with lines := { t.lines with feed := true } }) rfl).notify .feed _
  · exact h.kept rfl

theorem setBook (h : s.queuePath t) (b : Book) : s.queuePath (t.setBook b) :=
  (h.kept (u := { t with book := b }) rfl).judgeFeed

/-- A fold of operations that each offer entries alone. -/
theorem foldl {α : Type} {f : State → α → State} (hf : ∀ {u} a, s.queuePath u → s.queuePath (f u a)) (xs : List α)
    (h : s.queuePath t) : s.queuePath (xs.foldl f t) := by
  induction xs generalizing t with
  | nil => exact h
  | cons a rest ih => exact ih (hf a h)

theorem announceAll (h : s.queuePath t) (closed : List Nat) : s.queuePath (t.announceAll closed) :=
  foldl (fun _ path => (path.queueRecord _).notify _ _) closed h

theorem fallOpenDip (h : s.queuePath t) (i : Nat) : s.queuePath (t.fallOpenDip i).1 := by
  unfold State.fallOpenDip State.runCloseTest
  split
  · exact (h.modifyJob i _).modifyJob i _
  · exact h.modifyJob i _

theorem endDip (h : s.queuePath t) (job : Option JobRef) : s.queuePath (t.endDip job) := by
  cases job with
  | none => exact h
  | some j => exact (h.fallOpenDip j.slot).announceAll _

theorem raiseOpenDip (h : s.queuePath t) (job : Option JobRef) : s.queuePath (t.raiseOpenDip job) := by
  cases job with
  | none => exact h
  | some j => exact h.modifyJob j.slot _

theorem admitCrane (h : s.queuePath t) (c : Crane) (a : ReserveArgs) : s.queuePath (t.admitCrane c a) := by
  unfold State.admitCrane
  dsimp only
  split
  · refine ((h.kept ?_).raiseOpenDip _).notify _ _
    rfl
  · refine (h.kept ?_).raiseOpenDip _
    rfl

theorem endReservation (h : s.queuePath t) (c : Crane) (mark : Option Nat) : s.queuePath (t.endReservation c mark) :=
  ((freed h (numberOr0 (t.cranes.get c).entry) c (t.cranes.get c).leads mark).dropLive _).endDip _

theorem endFeed (h : s.queuePath t) (mark : Option Nat) : s.queuePath (t.endFeed mark) := h.kept rfl

theorem endEntry (h : s.queuePath t) (c : Crane) : s.queuePath (t.endEntry c) :=
  (freed h (numberOr0 (t.cranes.get c).entry) c (t.cranes.get c).leads none).dropLive _

theorem dropJob (h : s.queuePath t) (job : Option JobRef) : s.queuePath (t.dropJob job).1 := by
  cases job with
  | none => exact h
  | some j => exact (h.modifyJob j.slot _).fallOpenDip j.slot

theorem dropPiece (h : s.queuePath t) (c : Crane) : s.queuePath (t.dropPiece c) := by
  unfold State.dropPiece
  refine (((((h.kept ?_).idleCranes c _ none).dropLive _).dropJob _).queueRecord _).announceAll _
  rfl

theorem creditEntry (h : s.queuePath t) (x : CraneContext) (k : Closing) : s.queuePath (t.creditEntry x k).1 := by
  unfold State.creditEntry
  split
  · rename_i j _
    refine ((h.modifyJob j.slot fun y => y.credit x.black k.credited (numberOr0 x.entry)).kept ?_).fallOpenDip j.slot
    rfl
  · exact h

theorem teachClass (h : s.queuePath t) (n : Option Nat) (k : Option ClassEntry) (d : Option Nat) :
    s.queuePath (t.teachClass n k d) := by
  unfold State.teachClass
  split
  · split
    · split
      · exact h.kept (by simp [State.queueView])
      · exact h
    · exact h
  · exact h

theorem startDrain (h : s.queuePath t) (c : Crane) (k : ClassEntry) : s.queuePath (t.startDrain c k) := by
  unfold State.startDrain
  dsimp only
  split
  · refine (h.kept ?_).notifyEntry c _ _
    rfl
  · exact h.kept rfl

theorem bookPickup (h : s.queuePath t) (k : Closing) : s.queuePath (t.bookPickup k) := by
  unfold State.bookPickup
  split
  · exact h.setBook _
  · exact h

theorem allocate (h : s.queuePath t) (zc : Nat) : s.queuePath (t.allocate zc).1 := by
  have close (u : State) (closed : List Nat) (path : s.queuePath u) : s.queuePath (closed.foldl State.closeSlot u) :=
    foldl (fun i path => path.modifyJob i _) closed path
  unfold State.allocate
  dsimp only
  refine close _ _ ?_
  split
  · exact h.kept rfl
  · exact (foldl (fun p path => path.modifyJob p.1.slot _) (t.period.zip (sharesOf zc t.period)) h).kept rfl

theorem accountWork (h : s.queuePath t) (c : Crane) (x : CraneContext) (k : Closing) : s.queuePath (t.accountWork c x k) :=
  (((((h.bookPickup k).creditEntry x k).teachClass _ _ _).queueRecord _).announceAll _).notifyEntry c _ _

theorem accountDross (h : s.queuePath t) (c : Crane) (x : CraneContext) (k : Closing) : s.queuePath (t.accountDross c x k) := by
  unfold State.accountDross
  dsimp only
  split
  · exact ((((((h.setBook _).allocate _).teachClass _ _ _).queueRecord _).queueRecord _).announceAll _).notifyEntry c _ _
  · exact ((h.teachClass _ _ _).queueRecord _).notifyEntry c _ _

theorem account (h : s.queuePath t) (c : Crane) (cause : EndCause) (reported : Option Int) :
    s.queuePath (t.account c cause reported) := by
  have watch : s.queuePath (t.endWatch c (t.closing c cause reported)) := h.kept rfl
  unfold State.account
  dsimp only
  split
  · exact watch.accountDross c _ _
  · exact watch.accountWork c _ _

theorem takeTimer (h : s.queuePath t) (c : Crane) (step : TimerStep) (reported : Option Int) :
    s.queuePath (t.takeTimer c step reported) := by
  have timer : s.queuePath { t with timers := t.timers.set c step.timer } := h.kept rfl
  unfold State.takeTimer State.endDrain
  dsimp only
  split
  · split
    · exact timer.account c _ reported
    · exact timer
  · exact timer

theorem scanWatch (h : s.queuePath t) (c : Crane) : s.queuePath (t.scanWatch c) := by
  unfold State.scanWatch State.scanBlanking State.scanAfter
  dsimp only
  split
  · exact h
  · split <;> exact h.kept rfl
  · split
    · refine (h.kept ?_).takeTimer c _ _
      rfl
    · exact h.kept rfl

theorem expireWithin (h : s.queuePath t) (c : Crane) (lead : Nat) : s.queuePath (t.expireWithin c lead) := by
  rcases t.expireWithin_cases c lead with same | ⟨k, -, -, -, expired⟩
  · rw [same]
    exact h
  · rw [expired]
    refine (h.kept ?_).notifyEntry c _ _
    rfl

theorem noticeFault (h : s.queuePath t) (hook : Crane) : s.queuePath (t.noticeFault hook) := by
  unfold State.noticeFault
  split
  · exact (h.notify _ _).notify _ _
  · exact h.notify _ _

theorem scanHook (h : s.queuePath t) (hook : Crane) (r : Reading) : s.queuePath (t.scanHook hook r) := by
  unfold State.scanHook State.faultHook
  dsimp only
  split
  · refine (h.kept ?_).noticeFault hook
    rfl
  · exact h.kept rfl

theorem scanHooks (h : s.queuePath t) (rA rB : Reading) : s.queuePath (t.scanHooks rA rB) := by
  have passed : s.queuePath t.pass := h.kept rfl
  exact ((((passed.expireWithin .craneA 0).expireWithin .craneB 0)).scanHook .craneA rA).scanHook .craneB rB

theorem reachAfter (h : s.queuePath t) (c : Crane) : s.queuePath (t.reachAfter c) := by
  unfold State.reachAfter
  dsimp only
  split <;> exact h.kept rfl

theorem tickTimer (h : s.queuePath t) (c : Crane) : s.queuePath (t.tickTimer c) := by
  unfold State.tickTimer
  split
  · exact h.takeTimer c _ _
  · exact h

theorem meetCompare (h : s.queuePath t) (c : Crane) : s.queuePath (t.meetCompare c) := by
  unfold State.meetCompare
  dsimp only
  split
  · exact h.takeTimer c _ _
  · exact h

theorem saturateTimer (h : s.queuePath t) (c : Crane) : s.queuePath (t.saturateTimer c) := by
  unfold State.saturateTimer
  dsimp only
  split
  · exact h.takeTimer c _ _
  · exact h

theorem reconcile (h : s.queuePath t) : s.queuePath t.reconcile := by
  unfold State.reconcile
  dsimp only
  split
  · exact (h.kept rfl).queueRecord _
  · split
    · split
      · exact (h.kept rfl).queueRecord _
      · exact h.kept rfl
    · exact (((h.kept rfl).queueRecord _).notify _ _).notify _ _

theorem scanBath (h : s.queuePath t) (level temp : Reading) : s.queuePath (t.scanBath level temp) := by
  have quiet : s.queuePath (t.scanQuiet level temp) := by
    unfold State.scanQuiet State.judgeQuiet
    split <;> exact h.kept rfl
  rw [State.scanBath_eq]
  split
  · exact quiet.reconcile.judgeFeed
  · exact quiet.judgeFeed

theorem fallStop (h : s.queuePath t) : s.queuePath t.fallStop := by
  unfold State.fallStop
  split
  · exact h
  · exact (h.kept rfl).notifyAll _

theorem riseStop (h : s.queuePath t) : s.queuePath t.riseStop := by
  unfold State.riseStop
  split
  · exact h.kept rfl
  · exact h

theorem lapseEntry (h : s.queuePath t) (ctx : Context) : s.queuePath (t.lapseEntry ctx) := by
  have crane (c : Crane) : s.queuePath (t.lapseCrane c) := (h.endReservation _ _).notifyEntry _ _ _
  unfold State.lapseEntry
  split
  · cases ctx with
    | craneA => exact crane .craneA
    | craneB => exact crane .craneB
    | feed => exact (h.endFeed _).notify _ _
  · exact h

theorem tune (h : s.queuePath t) (new : Settings) : s.queuePath (t.tune new) := by
  have recalibrated : s.queuePath (({ t with settings := new } : State).recalibrate t.settings new) := by
    unfold State.recalibrate
    dsimp only
    split <;> split <;> exact h.kept rfl
  unfold State.tune
  dsimp only
  split
  · exact recalibrated
  · exact recalibrated.judgeFeed

end State.queuePath

/-! ### What the owning rules do to the queues -/

/-- What a request that its owning rule takes does to the queues and the store: entries offered; records taken from the head (R183),
or notices (R187); or the write of a hook's item in any case (R60). -/
inductive State.taken (s new : State) : Prop
  | offered (path : s.queuePath new)
  | records (n : Nat)
      (same : new.queueView = { s.queueView with records := { s.records with items := s.records.items.drop n } })
  | notices (p : Port)
      (same : new.queueView =
        { s.queueView with notices := s.notices.set p { items := (s.notices.get p).items.drop 4, overflow := false } })
  | hook (c : Crane) (h : Hook) (same : new = ({ s with hooks := s.hooks.set c h } : State).writeNow [.hook c])

/-- What a rule does to the queues: a refusal or a read nothing. -/
def Reply.takes (s : State) : Reply → Prop
  | .done _ new => s.taken new
  | .refused _ | .told _ => True

theorem byCrane_takes {p : Port} {rule : Crane → Reply} {s : State} (h : ∀ c, (rule c).takes s) :
    (byCrane p rule).takes s := by
  unfold byCrane
  split
  · exact h _
  · trivial

/-- A rule that offers entries alone. -/
theorem Reply.takes_of_path {s new : State} {ans : List Byte} (path : s.queuePath new) : (Reply.done ans new).takes s :=
  .offered path

/-- A rule that leaves the queues. -/
theorem Reply.takes_of_kept {s new : State} {ans : List Byte} (same : new.queueView = s.queueView) :
    (Reply.done ans new).takes s := .offered (s.queuePath_refl.kept same)

theorem closeJobRule_takes (body : List Byte) (s : State) : (closeJobRule body s).takes s := by
  have wait (i : Nat) : (closeJobWait i s).takes s := by
    refine Reply.takes_of_path (State.queuePath.announceAll ?_ _)
    unfold State.runCloseTest
    split
    · exact (s.queuePath_refl.modifyJob i _).modifyJob i _
    · exact s.queuePath_refl.modifyJob i _
  have now (i : Nat) : (closeJobNow i s).takes s :=
    Reply.takes_of_path (((State.queuePath.modifyJob
      (s.queuePath_refl.kept (u := { s with period := s.period.filter fun e => e.slot != i }) rfl) i _).modifyJob i _).announceAll
        [i])
  unfold closeJobRule
  dsimp only
  repeat' split
  all_goals first | trivial | exact wait _ | exact now _

theorem hookRules_take (c : Crane) (body : List Byte) (s : State) :
    (zeroHookRule c s).takes s ∧ (setHookRule body s).takes s := by
  constructor
  · unfold zeroHookRule
    dsimp only
    split_ifs
    · trivial
    · trivial
    · exact .hook c _ rfl
  · unfold setHookRule
    dsimp only
    split
    · trivial
    · split_ifs
      · trivial
      · trivial
      · exact .hook _ _ rfl

theorem leaveRule_takes (c : Crane) (s : State) : (leaveRule c s).takes s := by
  unfold leaveRule
  dsimp only
  split
  · trivial
  · split
    · exact Reply.takes_of_path (s.queuePath_refl.endEntry c)
    · exact Reply.takes_of_path ((s.queuePath_refl.account c _ _).endEntry c)

/-- The owning rules of a crane's requests offer entries alone, but ZERO HOOK's. -/
theorem craneRule_takes (r : Request) (p : Port) (body : List Byte) (s : State)
    (crane : r ∈ ([.reserve, .release, .join, .lower, .submerged, .withdraw, .clear, .turned, .leave, .dropped, .readHook,
      .zeroHook] : List Request)) : (ownRule r p body s).takes s := by
  have start := s.queuePath_refl
  cases r with
  | zeroHook => exact byCrane_takes fun c => (hookRules_take c body s).1
  | leave => exact byCrane_takes fun c => leaveRule_takes c s
  | reserve | release | clear | dropped =>
    refine byCrane_takes fun c => ?_
    simp only [reserveRule, releaseRule, clearRule, droppedRule]
    repeat' split
    all_goals first
      | trivial
      | exact Reply.takes_of_kept rfl
      | exact Reply.takes_of_path (start.admitCrane c _)
      | exact Reply.takes_of_path (start.endReservation c none)
      | exact Reply.takes_of_path (start.startDrain c _)
      | exact Reply.takes_of_path (start.dropPiece c)
  | join | lower | submerged | withdraw | turned | readHook =>
    refine byCrane_takes fun c => ?_
    simp only [joinRule, lowerRule, submergedRule, withdrawRule, turnedRule, readHookRule]
    repeat' split
    all_goals first | trivial | exact Reply.takes_of_kept rfl
  | _ => simp at crane

/-- Every owning rule offers entries alone, takes some from a queue's head, or writes a hook's item. -/
theorem ownRule_takes (r : Request) (p : Port) (body : List Byte) (s : State) : (ownRule r p body s).takes s := by
  have start := s.queuePath_refl
  cases r with
  | status | readBook | readLanes => trivial
  | takeNotice => exact .notices p rfl
  | takeRecords =>
    simp only [ownRule, takeRecordsRule]
    split
    · trivial
    · exact .records _ rfl
  | setHook => exact (hookRules_take .craneA body s).2
  | closeJob => exact closeJobRule_takes body s
  | tuneKettle =>
    simp only [ownRule, tuneKettleRule]
    split
    · exact Reply.takes_of_path (start.tune _)
    · trivial
  | charge | chargeAbort | setupKettle | readClass | readJob | hold | clearFoul | reconcileNow =>
    simp only [ownRule, chargeRule, chargeAbortRule, setupKettleRule, readClassRule, readJobRule, holdRule, clearFoulRule,
      reconcileNowRule]
    repeat' split
    all_goals first | trivial | exact Reply.takes_of_kept rfl
  | setClass =>
    simp only [ownRule, setClassRule]
    split
    · exact Reply.takes_of_kept (by simp [State.queueView])
    · trivial
  | openJob | removeJob =>
    simp only [ownRule, openJobRule, removeJobRule]
    repeat' split
    all_goals first | trivial | exact Reply.takes_of_path (start.modifyJob _ _)
  | chargeIn =>
    simp only [ownRule, chargeInRule]
    split
    · exact Reply.takes_of_path (((start.setBook _).queueRecord _).endFeed none)
    · trivial
  | skim =>
    simp only [ownRule, skimRule]
    split
    · trivial
    · exact Reply.takes_of_path ((start.setBook _).queueRecord _)
  | rebase =>
    simp only [ownRule, rebaseRule]
    split
    · trivial
    · exact Reply.takes_of_path (start.setBook _)
  | openBook => exact Reply.takes_of_path ((start.setBook _).queueRecord _)
  | resume =>
    simp only [ownRule, resumeRule]
    repeat' split
    all_goals first
      | trivial
      | exact Reply.takes_of_kept rfl
      | exact Reply.takes_of_path ((start.kept (u := { s with mode := .run }) rfl).notifyAll _)
  | _ => exact craneRule_takes _ p body s (by simp)

end Sys2Proof.Machine

namespace Sys2Proof.Machine

/-! ### Laws that every step keeps -/

/-- A law of the state that each part of a step keeps: what the links and the inputs do, the end of an event and of a request that is
taken, the writes due, the scrub, a flush, what befalls a stopped part, and a restart. -/
structure StepLaw (P : State → Prop) : Prop where
  linked : ∀ {s : State} (i : Inputs) (e : PerPort Engine) (q : List Instr),
    P s → P { s with inputs := i, engines := e, pending := q }
  event : ∀ {s t : State} (d : Deadline), s.phase = .running → s.queuePath t → P s → P (s.endEvent t d)
  request : ∀ {s new : State}, s.phase = .running → s.taken new → P s → P (s.endRequest new)
  due : ∀ {s : State} (d : Deadline), s.phase = .running → P s → P (s.writeDue d)
  disturbed : ∀ {s : State} (us : List Upset), P s → P { s with store := s.store.disturb us }
  scrubbed : ∀ {s : State}, s.phase = .running → P s → P s.scrub
  flushed : ∀ {s : State} (w : FlushWork), P s → P (s.flushed w)
  stopped : ∀ {s : State} (i : Inputs) (st : Store) (f : Option FlushWork), s.phase = .flushed → P s →
    P { s with inputs := i, store := st, flush := f }
  restarted : ∀ s : State, P s.restartWhole

theorem State.endEvent_phase (s t : State) (d : Deadline) : (s.endEvent t d).phase = t.phase := by
  rw [State.endEvent_frame]

/-- An event is taken by a running part alone. -/
theorem State.whileRunning_keeps {P : State → Prop} {s : State} {act : State → State} (hs : P s)
    (running : s.phase = .running → P (act s)) : P (s.whileRunning act) := by
  unfold State.whileRunning
  split
  · exact running ‹_›
  · exact hs

theorem State.settle_phase (s : State) (p : Port) : (s.settle p).phase = s.phase := (s.settle_stepsOn p).book.phase

namespace StepLaw

variable {P : State → Prop} {s : State}

/-- A law that a part of a step keeps of a running part, with the phase. -/
theorem event_running (law : StepLaw P) {t : State} (d : Deadline) (run : s.phase = .running) (path : s.queuePath t) (hs : P s) :
    (s.endEvent t d).phase = .running ∧ P (s.endEvent t d) := by
  obtain ⟨phase, -⟩ := path.frame
  exact ⟨(s.endEvent_phase t d).trans (phase.trans run), law.event d run path hs⟩

theorem engines (law : StepLaw P) (e : PerPort Engine) (hs : P s) : P { s with engines := e } :=
  law.linked s.inputs e s.pending hs

theorem inputs (law : StepLaw P) (i : Inputs) (hs : P s) : P { s with inputs := i } := law.linked i s.engines s.pending hs

theorem serve (law : StepLaw P) (run : s.phase = .running) (p : Port) (r : Request) (body : List Byte) (hs : P s) :
    P (s.serve p r body) := by
  have own := ownRule_takes r p body s
  rcases s.serve_cases p r body with ⟨st, -, served⟩ | ⟨ans, -, served⟩ | ⟨ans, new, taken, served⟩
  · rw [served]
    exact law.engines _ hs
  · rw [served]
    exact law.engines _ hs
  · rw [taken] at own
    rw [served]
    exact law.engines _ (law.request run own hs)

theorem settle (law : StepLaw P) (run : s.phase = .running) (p : Port) (hs : P s) : P (s.settle p) := by
  unfold State.settle
  split
  · exact law.serve run p _ _ hs
  · exact hs

theorem judge (law : StepLaw P) (run : s.phase = .running) (p : Port) (rx : ReceiveBuffer) (check : Byte) (hs : P s) :
    P (s.judge p rx check) := by
  rcases State.judge_cases (s := s) (p := p) (rx := rx) (check := check) with ⟨st, judged⟩ | ⟨r, -, -, -, judged⟩
  · rw [judged]
    exact law.engines _ hs
  · rw [judged]
    exact law.serve run p r _ hs

theorem writeTransfer (law : StepLaw P) (p : Port) (addr : LinkAddress) (code : Byte) (body : List Byte) (check : Byte) (hs : P s) :
    P (s.writeTransfer p addr code body check) := by
  unfold State.writeTransfer
  split
  · rename_i answers
    have run : s.phase = .running := by
      simp only [State.answers, Bool.and_eq_true, beq_iff_eq] at answers
      exact answers.1
    exact law.engines _ (law.judge ((s.settle_phase p).trans run) p _ check (law.settle run p hs))
  · exact hs

theorem readFrom (law : StepLaw P) (run : s.phase = .running) (p : Port) (clocked : Nat) (hs : P s) : P (s.readFrom p clocked) :=
  law.engines (s := (s.settle p).sendAnswer p clocked) _ (law.engines _ (law.settle run p hs))

theorem dropWrite (law : StepLaw P) (run : s.phase = .running) (p : Port) (hs : P s) : P (s.dropWrite p) :=
  law.engines _ (law.settle run p hs)

/-- A lapse in the 100 ms before a load scan (R14, R190). -/
theorem runOut (law : StepLaw P) (c : Context) (hs : s.phase = .running ∧ P s) :
    (s.runOut c).phase = .running ∧ P (s.runOut c) := by
  obtain ⟨run, hs⟩ := hs
  unfold State.runOut
  split
  · obtain ⟨still, ended⟩ := law.event_running .lapse run (s.queuePath_refl.lapseEntry c) hs
    exact ⟨still, law.due .lapse still ended⟩
  · exact ⟨run, hs⟩

theorem loadScan (law : StepLaw P) (rA rB : Reading) (first : Crane) (run : s.phase = .running) (hs : P s) :
    P (s.loadScan rA rB first) := by
  obtain ⟨still, mid⟩ := law.event_running .loadScan run ((s.queuePath_refl.scanHooks rA rB).scanWatch first) hs
  exact law.event .loadScan still ((State.queuePath_refl _).scanWatch first.other) mid

theorem flushPart (law : StepLaw P) (hs : P s) : P s.flushPart := by
  unfold State.flushPart
  split
  · rename_i run
    have phase : ∀ {t : State} (p : Port), t.phase = .running ∧ P t → (t.settle p).phase = .running ∧ P (t.settle p) :=
      fun p ⟨run, ht⟩ => ⟨(State.settle_phase _ p).trans run, law.settle run p ht⟩
    exact law.flushed _ (phase .office (phase .feed (phase .craneB (phase .craneA ⟨run, hs⟩)))).2
  · exact hs

theorem tryRestart (law : StepLaw P) (us : List Upset) (cut : Option RestartCut) (hs : P s) : P (s.tryRestart us cut) := by
  unfold State.tryRestart
  split
  · rename_i ready
    have stopped : s.phase = .flushed := by
      simp only [State.mayRestart, Bool.and_eq_true, beq_iff_eq] at ready
      exact ready.1.1.1
    cases cut with
    | none => exact law.restarted _
    | some k => exact law.stopped (s.inputs.cutBy k.cause) ((s.store.disturb us).cutAt k.after k.words) none (s := s) stopped hs
  · exact hs

theorem collapse (law : StepLaw P) (tears : List StepTear) (hs : P s) (stopped : s.phase = .flushed) : P (s.collapse tears) := by
  rw [State.collapse_frame]
  exact law.stopped _ _ _ stopped hs

end StepLaw

/-- After a flush the part is stopped. -/
theorem State.flushPart_phase (s : State) : s.flushPart.phase = .flushed := by
  unfold State.flushPart
  split
  · rfl
  · rename_i halted
    cases phase : s.phase with
    | running => exact absurd phase halted
    | flushed => rfl

/-- Whatever command a part takes, it keeps every law that the parts of a step keep. -/
theorem StepLaw.exec {P : State → Prop} (law : StepLaw P) {i : Instr} {s t : State} (hs : P s) (h : exec i s = .next t) :
    P t := by
  cases i <;> cases h
  case unknownRequest => exact law.writeTransfer _ _ _ _ _ hs
  case readTransfer p addr clocked =>
    split
    · rename_i answers
      simp only [State.answers, Bool.and_eq_true, beq_iff_eq] at answers
      exact law.readFrom answers.1 p clocked hs
    · exact hs
  case shortWrite p addr bytes ending =>
    split
    · rename_i answers
      simp only [State.answers, Bool.and_eq_true, beq_iff_eq] at answers
      exact law.dropWrite answers.1 p hs
    · exact hs
  case linkLowTimeout p during =>
    split
    · rename_i run
      cases during with
      | idle => exact hs
      | writing bytes => exact law.dropWrite run p hs
      | reading clocked => exact law.readFrom run p clocked hs
    · exact hs
  case lapseExpiry c =>
    exact State.whileRunning_keeps hs fun run => law.event .lapse (s := s.writeDue .lapse) run
      ((State.queuePath_refl _).lapseEntry c) (law.due .lapse run hs)
  case loadScan rA rB first =>
    refine State.whileRunning_keeps hs fun run => ?_
    obtain ⟨still, lapsed⟩ := law.runOut .feed (law.runOut .craneB (law.runOut .craneA
      (s := s.writeDue .loadScan) ⟨run, law.due .loadScan run hs⟩))
    exact law.loadScan rA rB first still lapsed
  case immersionLimitExpiry c =>
    exact State.whileRunning_keeps hs fun run => law.event .loadScan run (s.queuePath_refl.expireWithin c 1) hs
  case drainTimerTick c => exact State.whileRunning_keeps hs fun run => law.event .loadScan run (s.queuePath_refl.tickTimer c) hs
  case timedCompareMet c =>
    exact State.whileRunning_keeps hs fun run => law.event .loadScan run (s.queuePath_refl.meetCompare c) hs
  case drainSaturation c =>
    exact State.whileRunning_keeps hs fun run => law.event .loadScan run (s.queuePath_refl.saturateTimer c) hs
  case blankingEnd c => exact State.whileRunning_keeps hs fun run => law.event .loadScan run (s.queuePath_refl.reachAfter c) hs
  case bathScan rl rt us =>
    exact State.whileRunning_keeps hs fun run => law.event .bathScan run ((State.queuePath_refl _).scanBath rl rt)
      (law.scrubbed run (law.due .bathScan run (law.disturbed us hs)))
  case stopFall =>
    have falls := law.inputs { s.inputs with stopLow := true } hs
    exact State.whileRunning_keeps falls fun run => law.event .lapse run (State.queuePath_refl _).fallStop falls
  case stopRise =>
    have rises := law.inputs { s.inputs with stopLow := false } hs
    exact State.whileRunning_keeps rises fun run => law.event .lapse run (State.queuePath_refl _).riseStop rises
  case supplyFailFall | resetAssert => exact law.flushPart (law.inputs _ hs)
  case resetRelease us cut | supplyFailRise us cut => exact law.tryRestart us cut (law.inputs _ hs)
  case powerOn us cut =>
    split
    · exact hs
    · exact law.tryRestart us cut (law.inputs _ hs)
  case supplyCollapse tears => exact law.collapse tears (law.flushPart hs) s.flushPart_phase
  all_goals exact law.writeTransfer _ _ _ _ _ hs

/-- Every step keeps every law that its parts keep. -/
theorem StepLaw.step {P : State → Prop} (law : StepLaw P) {s t : State} (hs : P s) (h : step s = .next t) : P t := by
  unfold Machine.step at h
  split at h
  · cases h
    exact hs
  · exact law.exec (law.linked s.inputs s.engines _ hs) h

end Sys2Proof.Machine

namespace Sys2Proof.Machine

/-! ### The bounds of the queues (R177, R178, R185) -/

theorem NoticeQueue.bounded_push {q : NoticeQueue} (h : q.bounded) (n : Notice) : (q.push n).bounded := by
  unfold NoticeQueue.push
  split
  · rename_i room
    simpa using room
  · exact h

/-- The notices of every port stay bounded when one queue is replaced by a bounded one. -/
theorem PerPort.bounded_set {ns : PerPort NoticeQueue} (h : ∀ p, (ns.get p).bounded) (p : Port) {q : NoticeQueue}
    (hq : q.bounded) :
    ∀ r, ((ns.set p q).get r).bounded := by
  intro r
  by_cases same : r = p
  · subst same
    simpa using hq
  · rw [PerPort.get_set_other _ _ same]
    exact h r

/-- Every queue keeps its bound. -/
def QueueView.bounded (m : QueueView) : Prop := m.records.bounded ∧ ∀ p : Port, (m.notices.get p).bounded

theorem State.queuesBounded_iff (s : State) : s.queuesBounded ↔ s.queueView.bounded := Iff.rfl

/-- An entry offered finds room or is counted, so every queue keeps its bound (R178, R185). -/
theorem QueueMove.keeps_bounded {m m' : QueueView} (move : QueueMove m m') (h : m.bounded) : m'.bounded := by
  cases move with
  | recorded b => exact ⟨RecordQueue.push_bounded b h.1, h.2⟩
  | noticed p n => exact ⟨h.1, PerPort.bounded_set h.2 p (NoticeQueue.bounded_push (h.2 p) n)⟩

theorem State.queuePath.bounded {s t : State} (path : s.queuePath t) (h : s.queuesBounded) : t.queuesBounded :=
  path.keeps (P := QueueView.bounded) (fun _ _ move => move.keeps_bounded) h

/-- A request that is taken keeps the bounds of the queues. -/
theorem State.taken.bounded {s new : State} (taken : s.taken new) (h : s.queuesBounded) : new.queuesBounded := by
  rw [State.queuesBounded_iff]
  cases taken with
  | offered path => exact path.bounded h
  | records n same =>
    rw [same]
    exact ⟨⟨List.length_drop.trans_le ((Nat.sub_le _ _).trans h.1.1), h.1.2⟩, h.2⟩
  | notices p same =>
    rw [same]
    exact ⟨h.1, PerPort.bounded_set h.2 p (List.length_drop.trans_le ((Nat.sub_le _ _).trans (h.2 p)))⟩
  | hook c hook same =>
    subst same
    exact h

/-- The queues of a restored store are bounded (R179). -/
theorem Store.restore_records_bounded (st : Store) : st.restore.image.records.bounded := by
  refine ⟨(List.length_filterMap_le ..).trans ?_, Nat.min_le_right _ _⟩
  simp only [Store.readList, List.length_map, List.length_zipIdx, List.length_take]
  exact Nat.min_le_left _ _

/-- The restart notices are offered to their queues (R186). -/
theorem State.restartNotices_queuePath (s : State) (count : Nat) : s.queuePath (s.restartNotices count) := by
  have defaulted {t : State} (path : s.queuePath t) (c : Crane) : s.queuePath (t.noticeDefaulted c) := by
    unfold State.noticeDefaulted
    split
    · exact path
    · exact path.notify _ _
  have invalid {t : State} (path : s.queuePath t) : s.queuePath t.noticeInvalid := by
    unfold State.noticeInvalid
    split
    · exact (path.notify _ _).notify _ _
    · exact path
  have damage {t : State} (path : s.queuePath t) : s.queuePath (t.noticeDamage count) := by
    unfold State.noticeDamage
    split
    · exact path
    · exact path.notify _ _
  exact (damage (invalid (defaulted (defaulted s.queuePath_refl .craneA) .craneB))).judgeFeed

theorem State.released_queuePath (s : State) (count : Nat) : s.queuePath (s.released count) := by
  rw [State.released_eq]
  split
  · exact (s.restartNotices_queuePath count).fallStop.kept rfl
  · exact (s.restartNotices_queuePath count).kept rfl

/-- A restart that runs to its end leaves bounded queues (R179, R186). -/
theorem State.restartWhole_bounded (s : State) : s.restartWhole.queuesBounded :=
  (State.released_queuePath _ _).bounded
    ⟨RecordQueue.push_bounded _ s.store.restore_records_bounded, fun p => by cases p <;> exact Nat.zero_le _⟩

/-- The bounds of the queues are a law that every part of a step keeps. -/
theorem queuesBounded_stepLaw : StepLaw State.queuesBounded where
  linked _ _ _ h := h
  event d _ path h := by
    rw [State.endEvent_frame]
    exact path.bounded h
  request _ taken h := by
    rw [State.endRequest_frame]
    exact taken.bounded h
  due _ _ h := h
  disturbed _ h := h
  scrubbed _ h := h
  flushed _ h := h
  stopped _ _ _ _ h := h
  restarted := State.restartWhole_bounded

/-- Settles O5: every entry is offered to its queue, which counts it or flags it when full, and a restart reads no more than fit. -/
theorem queues_stay_bounded : Obligations.Queues_stay_bounded := fun _ _ => queuesBounded_stepLaw.step

end Sys2Proof.Machine

namespace Sys2Proof.Machine

/-! ### Writes over any store (R190) -/

theorem Store.writeAll_image (st : Store) (src : StoreImage) (keys : List StoreKey) :
    (st.writeAll src keys).image = st.image.putAll src keys := by
  induction keys generalizing st with
  | nil => rfl
  | cons k ks ih => exact ih (st.write src k)

theorem Store.make_image (st : Store) (w : StepWrites) : (st.make w).image = st.image.putAll w.image w.keys :=
  st.writeAll_image w.image w.keys

theorem Store.foldl_make_sized (st : Store) (ws : List StepWrites) : (ws.foldl Store.make st).image.sized st.image := by
  induction ws generalizing st with
  | nil => exact ⟨rfl, rfl⟩
  | cons w ws ih =>
    refine (ih (st.make w)).trans ?_
    rw [Store.make_image]
    exact st.image.putAll_sized w.image w.keys

/-- Writes made one after another leave each item as it was last written, whatever words of the store are in error. -/
theorem sameItem_lastImage_foldl_make {st : Store} {ws : List StepWrites} (sized : ∀ w ∈ ws, st.image.sized w.image)
    (k : StoreKey) : sameItem (ws.foldl Store.make st).image (lastImage ws k st.image) k = true := by
  induction ws generalizing st with
  | nil => exact sameItem_refl _ k
  | cons w ws ih =>
    obtain ⟨first, rest⟩ := List.forall_mem_cons.mp sized
    have kept : (st.make w).image.sized st.image := by
      rw [Store.make_image]
      exact st.image.putAll_sized w.image w.keys
    have written : sameItem (st.make w).image (if k ∈ w.keys then w.image else st.image) k = true := by
      rw [Store.make_image]
      exact sameItem_putAll first w.keys k
    exact sameItem_trans (ih fun v listed => kept.trans (rest v listed)) (sameItem_lastImage written ws)

/-! ### The writes that stay due (R190) -/

/-- Writes that name an item leave nothing of what was there before. -/
theorem lastImage_of_written {ws : List StepWrites} {k : StoreKey} (written : ∃ w ∈ ws, k ∈ w.keys) (x y : StoreImage) :
    lastImage ws k x = lastImage ws k y := by
  induction ws generalizing x y with
  | nil => simp at written
  | cons w ws ih =>
    rw [lastImage_cons, lastImage_cons]
    by_cases own : k ∈ w.keys
    · rw [if_pos own, if_pos own]
    · rw [if_neg own, if_neg own]
      simp only [List.exists_mem_cons_iff, own, false_or] at written
      exact ih written x y

/-- Writes that do not name an item leave it. -/
theorem lastImage_of_unwritten {ws : List StepWrites} {k : StoreKey} (unwritten : ∀ w ∈ ws, k ∉ w.keys) (x : StoreImage) :
    lastImage ws k x = x := by
  induction ws generalizing x with
  | nil => rfl
  | cons w ws ih =>
    obtain ⟨first, rest⟩ := List.forall_mem_cons.mp unwritten
    rw [lastImage_cons, if_neg first, ih rest]

/-- The writes of steps, one after another. -/
def writesOf (steps : List DueStep) : List StepWrites := steps.flatMap DueStep.writes

theorem writesOf_cons (d : DueStep) (steps : List DueStep) : writesOf (d :: steps) = d.writes ++ writesOf steps := rfl

theorem writesOf_append (xs ys : List DueStep) : writesOf (xs ++ ys) = writesOf xs ++ writesOf ys := List.flatMap_append

theorem mem_flatMap_keys {steps : List DueStep} {k : StoreKey} :
    k ∈ steps.flatMap DueStep.keys ↔ ∃ w ∈ writesOf steps, k ∈ w.keys := by
  simp only [writesOf, DueStep.keys, List.mem_flatMap]
  tauto

/-- What is still due once some items are written: the same writes, without these items. -/
theorem mem_writesOf_stillDue {steps : List DueStep} {written : List StoreKey} {w : StepWrites}
    (due : w ∈ writesOf (stillDue steps written)) :
    ∃ v ∈ writesOf steps, w = { v with keys := v.keys.filter fun k => !written.contains k } := by
  simp only [writesOf, stillDue, withoutWritten, List.mem_flatMap, List.mem_filter, List.mem_map] at due ⊢
  obtain ⟨d, ⟨⟨step, listed, rfl⟩, -⟩, made⟩ := due
  simp only [List.mem_filter, List.mem_map] at made
  obtain ⟨⟨v, own, rfl⟩, -⟩ := made
  exact ⟨v, ⟨step, listed, own⟩, rfl⟩

/-- The last write of an item among writes from which items already written are taken out. -/
theorem lastImage_withoutWritten (ws : List StepWrites) (written : List StoreKey) (k : StoreKey) (x : StoreImage) :
    lastImage (withoutWritten ws written) k x = if k ∈ written then x else lastImage ws k x := by
  have named := lastImage_filter_map (f := id) (fun w none => none)
    (ws.map fun w => { w with keys := w.keys.filter fun k => !written.contains k }) k x
  rw [List.map_id, List.map_id] at named
  rw [withoutWritten, named]
  split
  · rename_i gone
    exact lastImage_of_unwritten (by simp [gone]) x
  · rename_i stays
    have same := lastImage_map_congr (k := k) (f := fun w => { w with keys := w.keys.filter fun k => !written.contains k })
      (g := id) (fun _ => rfl) (fun w => by simp [stays]) ws x
    rwa [List.map_id] at same

theorem lastImage_stillDue (steps : List DueStep) (written : List StoreKey) (k : StoreKey) (x : StoreImage) :
    lastImage (writesOf (stillDue steps written)) k x = if k ∈ written then x else lastImage (writesOf steps) k x := by
  induction steps generalizing x with
  | nil => simp [stillDue, writesOf, lastImage_nil]
  | cons d steps ih =>
    have head : writesOf (stillDue (d :: steps) written) =
        withoutWritten d.writes written ++ writesOf (stillDue steps written) := by
      by_cases none : withoutWritten d.writes written = []
      · simp [stillDue, writesOf, none]
      · simp [stillDue, writesOf, none]
    rw [head, lastImage_append, lastImage_withoutWritten, ih, writesOf_cons, lastImage_append]
    split <;> rfl

/-- The steps due at a deadline, made first, and then those that stay, leave the last write of each item as all of them in their
order do (R190). -/
theorem lastImage_laterSteps (d : Deadline) (steps : List DueStep) (k : StoreKey) (x : StoreImage) :
    lastImage (writesOf (laterSteps d steps)) k (lastImage (writesOf (steps.filter fun w => w.dueAt d)) k x) =
      lastImage (writesOf steps) k x := by
  induction steps generalizing x with
  | nil => rfl
  | cons w steps ih =>
    rw [writesOf_cons, lastImage_append, ← ih]
    by_cases due : w.dueAt d
    · simp only [laterSteps, if_pos due, List.filter_cons, writesOf_cons, lastImage_append]
    · rw [laterSteps, if_neg due, writesOf_append, lastImage_append, lastImage_stillDue]
      simp only [List.filter_cons, if_neg due]
      split <;> rename_i overtaken <;> rw [mem_flatMap_keys] at overtaken
      · rw [lastImage_of_written overtaken]
      · push Not at overtaken
        rw [lastImage_of_unwritten overtaken, lastImage_of_unwritten overtaken]
        simp [writesOf]

theorem mem_writesOf_laterSteps {d : Deadline} {steps : List DueStep} {w : StepWrites} (due : w ∈ writesOf (laterSteps d steps)) :
    ∃ v ∈ writesOf steps, ∃ written : List StoreKey, w = { v with keys := v.keys.filter fun k => !written.contains k } ∧
      ∃ made : List DueStep, (∀ m ∈ made, m ∈ steps) ∧ written = made.flatMap DueStep.keys := by
  induction steps with
  | nil => simp [laterSteps, writesOf] at due
  | cons step steps ih =>
    have rest (later : w ∈ writesOf (laterSteps d steps)) : ∃ v ∈ writesOf (step :: steps), ∃ written : List StoreKey,
        w = { v with keys := v.keys.filter fun k => !written.contains k } ∧
        ∃ made : List DueStep, (∀ m ∈ made, m ∈ step :: steps) ∧ written = made.flatMap DueStep.keys := by
      obtain ⟨v, listed, written, same, made, from_, keys⟩ := ih later
      exact ⟨v, List.mem_append_right _ listed, written, same, made, fun m mem => List.mem_cons_of_mem _ (from_ m mem), keys⟩
    unfold laterSteps at due
    split at due
    · exact rest due
    · rw [writesOf_append] at due
      rcases List.mem_append.mp due with own | later
      · obtain ⟨v, listed, same⟩ := mem_writesOf_stillDue own
        refine ⟨v, List.mem_append_left _ (by simpa [writesOf] using listed), _, same, _, fun m mem => ?_, rfl⟩
        exact List.mem_cons_of_mem _ (List.mem_of_mem_filter mem)
      · exact rest later

/-! ### The store of a running part follows its working copies (R190) -/

/-- The store and the writes due are of the size of the working copies, and the last write of each item, made or due, is its working
copy. -/
structure State.follows (s : State) : Prop where
  sized : s.store.image.sized s.image
  due : ∀ w ∈ writesOf s.unsaved, w.image.sized s.image
  last : ∀ k ∈ storeKeys, sameItem (s.lastWritten k) s.image k = true

theorem State.storeCurrent_iff (s : State) : s.storeCurrent ↔ (s.phase = .running → s.follows) := by
  constructor
  · intro current run
    obtain ⟨⟨classes, jobs⟩, due, last⟩ := current run
    exact ⟨⟨classes, jobs⟩, fun w listed => ⟨(due w listed).1, (due w listed).2⟩, last⟩
  · intro follows run
    obtain ⟨⟨classes, jobs⟩, due, last⟩ := follows run
    exact ⟨⟨classes, jobs⟩, fun w listed => ⟨(due w listed).classes, (due w listed).jobs⟩, last⟩

theorem State.lastWritten_writesOf (s : State) (k : StoreKey) :
    s.lastWritten k = lastImage (writesOf s.unsaved) k s.store.image := s.lastWritten_eq k

/-- The steps due at a deadline made, each item is as it was last written. -/
theorem State.writeDue_lastWritten {s : State} (sized : ∀ w ∈ writesOf s.unsaved, s.store.image.sized w.image) (d : Deadline)
    (k : StoreKey) : sameItem ((s.writeDue d).lastWritten k) (s.lastWritten k) k = true := by
  have made : (s.writeDue d).store = (writesOf (s.unsaved.filter fun w => w.dueAt d)).foldl Store.make s.store := by
    rw [writesOf, List.foldl_flatMap]
    rfl
  rw [State.lastWritten_writesOf, State.lastWritten_writesOf, made, ← lastImage_laterSteps d s.unsaved k s.store.image]
  refine sameItem_lastImage (sameItem_lastImage_foldl_make (fun w listed => sized w ?_) k) _
  obtain ⟨step, mem, own⟩ := List.mem_flatMap.mp listed
  exact List.mem_flatMap.mpr ⟨step, List.mem_of_mem_filter mem, own⟩

theorem State.writeDue_sized (s : State) (d : Deadline) : (s.writeDue d).store.image.sized s.store.image := by
  change ((s.unsaved.filter fun w => w.dueAt d).foldl (fun st w => w.writes.foldl Store.make st) s.store).image.sized _
  rw [← List.foldl_flatMap]
  exact Store.foldl_make_sized _ _

/-- Items written now are as their working copies; the others as they were last written. -/
theorem State.writeNow_lastWritten {s : State} (sized : s.store.image.sized s.image) (keys : List StoreKey) (k : StoreKey) :
    sameItem ((s.writeNow keys).lastWritten k) (if k ∈ keys then s.image else s.lastWritten k) k = true := by
  have put := sameItem_putAll sized keys k
  rw [State.lastWritten_writesOf]
  change sameItem (lastImage (writesOf (stillDue s.unsaved keys)) k (s.store.writeAll s.image keys).image) _ k = true
  rw [lastImage_stillDue, Store.writeAll_image]
  split <;> rename_i mem
  · rwa [if_pos mem] at put
  · rw [if_neg mem] at put
    rw [State.lastWritten_writesOf]
    exact sameItem_lastImage put _

theorem State.writeNow_sized {s : State} (sized : s.store.image.sized s.image) (keys : List StoreKey) :
    (s.writeNow keys).store.image.sized s.image := by
  change (s.store.writeAll s.image keys).image.sized s.image
  rw [Store.writeAll_image]
  exact (StoreImage.putAll_sized _ _ _).trans sized

theorem mem_writesOf_writeNow {s : State} {keys : List StoreKey} {w : StepWrites} (due : w ∈ writesOf (s.writeNow keys).unsaved) :
    ∃ v ∈ writesOf s.unsaved, w = { v with keys := v.keys.filter fun k => !keys.contains k } := mem_writesOf_stillDue due

/-- What the owning rule of a step leaves to its end: a store and writes due of the size of the working copies, with the last write
of each item its working copy where the step did not change it. -/
structure State.leaves (s t : State) : Prop where
  sized : t.store.image.sized t.image
  due : ∀ w ∈ writesOf t.unsaved, w.image.sized t.image
  last : ∀ k ∈ storeKeys, sameItem s.image t.image k = true → sameItem (t.lastWritten k) t.image k = true

theorem State.lastWritten_congr {s t : State} (store : t.store = s.store) (unsaved : t.unsaved = s.unsaved) (k : StoreKey) :
    t.lastWritten k = s.lastWritten k := by
  rw [State.lastWritten, State.lastWritten, store, unsaved]

/-- A rule that leaves the store and the writes due leaves the rest to the end of its step. -/
theorem State.follows.leaves {s t : State} (h : s.follows) (store : t.store = s.store) (unsaved : t.unsaved = s.unsaved)
    (size : s.image.sized t.image) : s.leaves t := by
  refine ⟨?_, fun w listed => ?_, fun k listed same => ?_⟩
  · rw [store]
    exact h.sized.trans size
  · rw [unsaved] at listed
    exact (h.due w listed).trans size
  · rw [State.lastWritten_congr store unsaved]
    exact sameItem_trans (h.last k listed) same

namespace State.leaves

variable {s t : State}

theorem writeDue (h : s.leaves t) (d : Deadline) : s.leaves (t.writeDue d) := by
  refine ⟨(t.writeDue_sized d).trans h.sized, fun w listed => ?_, fun k listed same => ?_⟩
  · obtain ⟨v, mem, written, rfl, -⟩ := mem_writesOf_laterSteps listed
    exact ⟨(h.due v mem).classes, (h.due v mem).jobs⟩
  · exact sameItem_trans (State.writeDue_lastWritten (fun w mem => h.sized.trans (h.due w mem).symm) d k) (h.last k listed same)

theorem writeNow (h : s.leaves t) (keys : List StoreKey) : s.leaves (t.writeNow keys) := by
  refine ⟨State.writeNow_sized h.sized keys, fun w listed => ?_, fun k listed same => ?_⟩
  · obtain ⟨v, mem, rfl⟩ := mem_writesOf_writeNow listed
    exact ⟨(h.due v mem).classes, (h.due v mem).jobs⟩
  · have written := State.writeNow_lastWritten h.sized keys k
    split at written
    · exact written
    · exact sameItem_trans written (h.last k listed same)

/-- With every item written that the step changed, the store follows. -/
theorem follows_of_written (h : s.leaves t) {keys : List StoreKey}
    (written : ∀ k ∈ storeKeys, k ∉ keys → sameItem s.image t.image k = true) : (t.writeNow keys).follows := by
  obtain ⟨sized, due, -⟩ := h.writeNow keys
  refine ⟨sized, due, fun k listed => ?_⟩
  have last := State.writeNow_lastWritten h.sized keys k
  split at last
  · exact last
  · exact sameItem_trans last (h.last k listed (written k listed ‹_›))

/-- A state that differs in nothing that the store has to do with. -/
theorem congr (h : s.leaves t) {u : State} (store : u.store = t.store) (unsaved : u.unsaved = t.unsaved)
    (image : u.image = t.image) : s.leaves u := by
  obtain ⟨sized, due, last⟩ := h
  rw [← image] at sized due last
  rw [← store] at sized
  rw [← unsaved] at due
  exact ⟨sized, due, fun k listed same => State.lastWritten_congr store unsaved k ▸ last k listed same⟩

end State.leaves

/-- Where nothing was changed, the store follows. -/
theorem State.leaves.follows {s t : State} (h : s.leaves t) (same : t.image = s.image) : t.follows :=
  ⟨h.sized, h.due, fun k listed => h.last k listed (same ▸ sameItem_refl _ k)⟩

theorem State.follows.writeDue {s : State} (h : s.follows) (d : Deadline) : (s.writeDue d).follows :=
  ((h.leaves rfl rfl ⟨rfl, rfl⟩).writeDue d).follows rfl

theorem State.queuePath.sized {s t : State} (path : s.queuePath t) : s.image.sized t.image := by
  obtain ⟨-, -, -, classes, jobs⟩ := path.frame
  exact ⟨classes.symm, jobs.symm⟩

theorem State.follows.leaves_of_path {s t : State} (h : s.follows) (path : s.queuePath t) : s.leaves t := by
  obtain ⟨-, store, unsaved, -, -⟩ := path.frame
  exact h.leaves store unsaved path.sized

theorem sameItem_of_unchanged {old new : StoreImage} {k : StoreKey} (listed : k ∈ storeKeys)
    (unchanged : k ∉ changedKeys old new) :
    sameItem old new k = true := by
  rw [changedKeys, differing_eq] at unchanged
  simp only [List.mem_filter, listed, true_and, writesItem, Bool.or_eq_true, not_or, Bool.not_eq_true', Bool.not_eq_false]
    at unchanged
  exact unchanged.1

theorem State.endEvent_writesOf (s t : State) (d : Deadline) :
    writesOf (s.endEvent t d).unsaved = writesOf t.unsaved ++ stepWrites s.image t.image := by
  rw [State.endEvent_unsaved, writesOf_append, madeDue]
  split
  · rename_i none
    rw [none]
    rfl
  · simp [writesOf]

/-- The end of an event's step: what the event changed is due, as it left it. -/
theorem State.follows.endEvent {s t : State} (h : s.follows) (path : s.queuePath t) (d : Deadline) : (s.endEvent t d).follows := by
  have left := h.leaves_of_path path
  obtain ⟨-, store, unsaved, -, -⟩ := path.frame
  have image : (s.endEvent t d).image = t.image := s.endEvent_image t d
  have kept : (s.endEvent t d).store = t.store := by rw [State.endEvent_frame]
  have noneDue : (stepWrites s.image t.image).map (StepWrites.overDue []) = stepWrites s.image t.image := by
    conv_rhs => rw [← List.map_id (stepWrites s.image t.image)]
    exact List.map_congr_left fun w _ => by simp [StepWrites.overDue, withDueLost]
  refine ⟨?_, fun w listed => ?_, fun k listed => ?_⟩
  · rw [image, kept]
    exact left.sized
  · rw [image]
    rw [State.endEvent_writesOf] at listed
    rcases List.mem_append.mp listed with old | new
    · exact left.due w old
    · rcases (mem_stepWrites new).2 with e | e
      · rw [e]
        exact ⟨rfl, StoreImage.unclosed_jobs_length _ _⟩
      · rw [e]
        exact ⟨rfl, rfl⟩
  · rw [State.lastWritten_writesOf, State.endEvent_writesOf, kept, image, lastImage_append, ← State.lastWritten_writesOf,
      State.lastWritten_congr store unsaved, ← noneDue]
    exact sameItem_stepWrites [] listed (h.last k listed)

/-- The end of an accepted request's step: the writes of a lapse made, and what the request changed. -/
theorem State.leaves.endRequest {s t : State} (h : s.leaves t) : (s.endRequest t).follows := by
  have judged : s.leaves (s.judgeStill t) := h.congr (by simp) (by simp) (s.judgeStill_image t)
  have through : (s.writeThrough (s.judgeStill t)).follows :=
    (judged.writeDue .lapse).follows_of_written fun k listed unwritten =>
      sameItem_of_unchanged listed fun changed => unwritten (mem_withDueLost.mpr (.inl changed))
  exact ⟨through.sized, through.due, through.last⟩

/-- A request that is taken leaves the rest to the end of its step. -/
theorem State.taken.leaves {s new : State} (taken : s.taken new) (h : s.follows) : s.leaves new := by
  cases taken with
  | offered path => exact h.leaves_of_path path
  | records n same | notices p same =>
    exact h.leaves (congrArg QueueView.store same) (congrArg QueueView.unsaved same)
      ⟨(congrArg QueueView.classCount same).symm, (congrArg QueueView.jobCount same).symm⟩
  | hook c hook same =>
    subst same
    exact (h.leaves (t := { s with hooks := s.hooks.set c hook }) rfl rfl ⟨rfl, rfl⟩).writeNow [.hook c]

/-! ### The scrub leaves what the store holds (R192) -/

/-- An item put together of words of images that agree on it is as in them. -/
theorem sameItem_weave {x : StoreImage} {k : StoreKey} {w : Nat → StoreImage} (words : ∀ i, sameItem (w i) x k = true) :
    sameItem (x.weave k w) x k = true := by
  cases k with
  | hook c =>
    have same : (fun i => (w i).hooks.get c) = fun _ => x.hooks.get c := funext fun i => by simpa [sameItem] using words i
    simp only [sameItem, StoreImage.weave, same, Calibration.ofWords_const, PerCrane.get_set_same]
    exact beq_self_eq_true _
  | classFields n =>
    cases found : x.classes[n]? with
    | none => simp [sameItem, StoreImage.weave, found]
    | some d =>
      have unedited (f : Nat → ClassEntry) :
          (ClassEntry.ofWords d.edition f).unedited = (ClassEntry.ofWords d.edition fun i => (f i).unedited).unedited := rfl
      have same : (fun i => (((w i).classes[n]?).getD d).unedited) = fun _ => d.unedited := funext fun i => by
        have word := words i
        simp only [sameItem, found, beq_iff_eq, Option.map_some, Option.map_eq_some_iff] at word
        obtain ⟨e, there, fields⟩ := word
        rw [there, Option.getD_some, fields]
      simp only [sameItem, StoreImage.weave, found, getElem?_set_of_some _ found, Option.map_some]
      rw [unedited, same]
      exact beq_self_eq_true _
  | job n =>
    cases found : x.jobs[n]? with
    | none => simp [sameItem, StoreImage.weave, found]
    | some d =>
      have same : (fun i => ((w i).jobs[n]?).getD d) = fun _ => d := funext fun i => by
        have word := words i
        simp only [sameItem, found, beq_iff_eq] at word
        rw [word, Option.getD_some]
      simp [sameItem, StoreImage.weave, found, getElem?_set_of_some _ found, same]
  | period =>
    have same : (fun i => (w i).period) = fun _ => x.period := funext fun i => by simpa [sameItem] using words i
    simp [sameItem, StoreImage.weave, same]
  | book =>
    have same : (fun i => (w i).book) = fun _ => x.book := funext fun i => by simpa [sameItem] using words i
    simp [sameItem, StoreImage.weave, same]
  | live =>
    have same : (fun i => (w i).live) = fun _ => x.live := funext fun i => by simpa [sameItem] using words i
    simp [sameItem, StoreImage.weave, same]
  | classEdition n =>
    have first := words 0
    cases found : x.classes[n]? with
    | none => simp [sameItem, StoreImage.weave, StoreImage.putItem, found]
    | some d =>
      simp only [sameItem, found, beq_iff_eq, Option.map_some, Option.map_eq_some_iff] at first
      obtain ⟨e, there, edition⟩ := first
      simp [sameItem, StoreImage.weave, StoreImage.putItem, found, there, getElem?_set_of_some _ found, edition]
  | setting n =>
    have first := words 0
    simp only [sameItem, beq_iff_eq] at first
    simp [sameItem, StoreImage.weave, StoreImage.putItem, Settings.get_put_get, first]
  | foul | records => exact sameItem_refl x _
  | setup | counter | lost => simpa [sameItem, StoreImage.weave, StoreImage.putItem] using words 0

/-- Words of an item taken from an image that agrees on it leave every item. -/
theorem sameItem_withWords {x src : StoreImage} {k : StoreKey} (same : sameItem src x k = true) (pick : Nat → Bool)
    (j : StoreKey) :
    sameItem (x.withWords src k pick) x j = true := by
  by_cases own : j = k
  · subst own
    refine sameItem_weave fun i => ?_
    split
    · exact same
    · exact sameItem_refl x j
  · exact StoreImage.weave_other x _ own

theorem StoreImage.weave_sized (x : StoreImage) (k : StoreKey) (w : Nat → StoreImage) : (x.weave k w).sized x := by
  cases k with
  | setup | setting | classEdition | counter | lost =>
    simp only [StoreImage.weave]
    exact StoreImage.putItem_sized x (w 0) _
  | classFields n =>
    dsimp only [StoreImage.weave]
    split
    · exact ⟨List.length_set, rfl⟩
    · exact ⟨rfl, rfl⟩
  | job n =>
    dsimp only [StoreImage.weave]
    split
    · exact ⟨rfl, List.length_set⟩
    · exact ⟨rfl, rfl⟩
  | _ => exact ⟨rfl, rfl⟩

/-- The blocks of the store name its items. -/
theorem storeBlocks_keys : ∀ b ∈ storeBlocks, b.1 ∈ storeKeys := by
  simp only [storeBlocks, storeKeys, earlyKeys, lateKeys, List.forall_mem_append, List.forall_mem_map, List.forall_mem_flatMap,
    List.forall_mem_cons]
  refine ⟨⟨⟨⟨⟨?_, fun n listed => ?_⟩, ?_⟩, fun n listed => ?_⟩, fun n listed => ?_⟩, ?_⟩ <;> simp_all

theorem mem_of_wordAt {blocks : List (StoreKey × Nat × Nat)} {i : Nat} {w : StoreKey × Nat × Nat}
    (h : wordAt blocks i = some w) :
    ∃ b ∈ blocks, b.1 = w.1 := by
  induction blocks generalizing i with
  | nil => simp [wordAt] at h
  | cons b bs ih =>
    unfold wordAt at h
    split at h
    · cases h
      exact ⟨b, List.mem_cons_self, rfl⟩
    · obtain ⟨c, mem, name⟩ := ih h
      exact ⟨c, List.mem_cons_of_mem _ mem, name⟩

theorem mem_storeKeys_of_wordAt {i : Nat} {w : StoreKey × Nat × Nat} (h : wordAt storeBlocks i = some w) :
    w.1 ∈ storeKeys := by
  obtain ⟨b, mem, name⟩ := mem_of_wordAt h
  exact name ▸ storeBlocks_keys b mem

/-- The scrub leaves the values of the store, or writes one word of an item back from the working copy (R192). -/
theorem Store.scrubWord_image (st : Store) (src : StoreImage) (w : StoreKey × Nat × Nat) :
    (st.scrubWord src w).image = st.image ∨ (st.scrubWord src w).image = st.image.withWords src w.1 fun i => i == w.2.2 := by
  unfold Store.scrubWord
  split
  · exact .inr rfl
  · exact .inl rfl

/-- A write due of an item makes up for whatever the scrub does to it; and of any other item the store has the working copy, so that a
word written back leaves it. -/
theorem State.follows.scrub {s : State} (h : s.follows) : s.scrub.follows := by
  cases word : wordAt storeBlocks s.scrubAt with
  | none =>
    have same : s.scrub.store = s.store := by simp [State.scrub, word]
    exact ⟨same ▸ h.sized, h.due, fun k listed => State.lastWritten_congr same rfl k ▸ h.last k listed⟩
  | some w =>
    have store : s.scrub.store = s.store.scrubWord s.image w := by simp [State.scrub, word]
    rcases s.store.scrubWord_image s.image w with image | image
    · refine ⟨?_, h.due, fun k listed => ?_⟩
      · rw [store, image]
        exact h.sized
      · rw [State.lastWritten_writesOf, store, image]
        exact State.lastWritten_writesOf s k ▸ h.last k listed
    · refine ⟨?_, h.due, fun k listed => ?_⟩
      · rw [store, image]
        exact (StoreImage.weave_sized _ _ _).trans h.sized
      · have last := h.last k listed
        rw [State.lastWritten_writesOf] at last ⊢
        rw [store, image]
        change sameItem (lastImage (writesOf s.unsaved) k _) s.image k = true
        by_cases due : ∃ v ∈ writesOf s.unsaved, k ∈ v.keys
        · rw [lastImage_of_written due _ s.store.image]
          exact last
        · push Not at due
          rw [lastImage_of_unwritten due] at last ⊢
          by_cases own : k = w.1
          · subst own
            exact sameItem_trans (sameItem_withWords (sameItem_symm last) _ _) last
          · exact sameItem_trans (StoreImage.weave_other _ _ own) last

theorem State.released_image (s : State) (count : Nat) : (s.released count).image = s.image := by
  have fall (t : State) : t.fallStop.image = t.image := by
    unfold State.fallStop
    split
    · rfl
    · simp [State.image]
  rw [State.released_eq]
  split
  · exact (fall _).trans (by rw [State.restartNotices_frame]; rfl)
  · rw [State.restartNotices_frame]
    rfl

/-- A restart that runs to its end leaves a sound store that holds the working copies, and no write due (R198). -/
theorem State.restartWhole_store (s : State) :
    s.restartWhole.store = { image := s.restartWhole.image, flips := [] } ∧ s.restartWhole.unsaved = [] := by
  obtain ⟨-, store, unsaved, -, -⟩ :=
    (State.released_queuePath (s.revived s.store.restore.ended s.store.restore.damaged) s.store.restore.damaged.length).frame
  refine ⟨store.trans ?_, unsaved⟩
  rw [State.restartWhole, State.released_image]
  rfl

/-- A part whose store holds the working copies, with no write due. -/
theorem State.follows_of_saved {s : State} (image : s.store.image = s.image) (saved : s.unsaved = []) : s.follows := by
  refine ⟨image ▸ ⟨rfl, rfl⟩, fun w listed => ?_, fun k _ => ?_⟩
  · simp [saved, writesOf] at listed
  · rw [State.lastWritten_writesOf, saved, image]
    exact sameItem_refl _ k

/-- That the store follows the working copies of a running part is a law that every part of a step keeps. -/
theorem storeCurrent_stepLaw : StepLaw State.storeCurrent where
  linked _ _ _ h := h
  event d run path h := (State.storeCurrent_iff _).mpr fun _ => ((State.storeCurrent_iff _).mp h run).endEvent path d
  request run taken h := (State.storeCurrent_iff _).mpr fun _ => (taken.leaves ((State.storeCurrent_iff _).mp h run)).endRequest
  due d run h := (State.storeCurrent_iff _).mpr fun _ => ((State.storeCurrent_iff _).mp h run).writeDue d
  disturbed _ h := h
  scrubbed run h := (State.storeCurrent_iff _).mpr fun _ => ((State.storeCurrent_iff _).mp h run).scrub
  flushed _ _ := (State.storeCurrent_iff _).mpr fun run => nomatch run
  stopped _ _ _ halted _ := (State.storeCurrent_iff _).mpr fun run => nomatch halted.symm.trans run
  restarted s := by
    obtain ⟨store, saved⟩ := s.restartWhole_store
    exact (State.storeCurrent_iff _).mpr fun _ => State.follows_of_saved (congrArg Store.image store) saved

/-! ### The list of records and the lost count are due together (R178, log 12) -/

/-- Items among which the list of records and the lost count stand both, or neither. -/
def pairedKeys (keys : List StoreKey) : Prop := StoreKey.records ∈ keys ↔ StoreKey.lost ∈ keys

/-- Items that are paired stay so when paired ones, or others alone, are taken out. -/
theorem pairedKeys.without {keys written : List StoreKey} (h : pairedKeys keys) (out : pairedKeys written) :
    pairedKeys (keys.filter fun k => !written.contains k) := by
  unfold pairedKeys at *
  simp [List.mem_filter, h, out]

theorem pairedKeys_flatMap {steps : List DueStep} (h : ∀ w ∈ writesOf steps, pairedKeys w.keys) :
    pairedKeys (steps.flatMap DueStep.keys) := by
  unfold pairedKeys
  rw [mem_flatMap_keys, mem_flatMap_keys]
  exact exists_congr fun w => and_congr_right fun listed => h w listed

theorem State.recordsTogether_writeDue {s : State} (h : s.recordsTogether) (d : Deadline) : (s.writeDue d).recordsTogether := by
  intro w listed
  obtain ⟨v, mem, written, rfl, made, from_, rfl⟩ := mem_writesOf_laterSteps listed
  refine pairedKeys.without (h v mem) (pairedKeys_flatMap fun x own => h x ?_)
  obtain ⟨step, stands, there⟩ := List.mem_flatMap.mp own
  exact List.mem_flatMap.mpr ⟨step, from_ step stands, there⟩

theorem RecordQueue.offered_push (q : RecordQueue) (b : RecordBody) : (q.push b).offered = q.offered + 1 := by
  unfold RecordQueue.push
  split <;> rfl

/-- Entries offered to the record queue: none, or the queue has counted them (log 12). -/
theorem State.queuePath.records {s t : State} (path : s.queuePath t) :
    t.records = s.records ∨ s.records.offered < t.records.offered := by
  refine path.keeps (P := fun m => m.records = s.records ∨ s.records.offered < m.records.offered)
    (fun m m' move stands => ?_) (.inl rfl)
  cases move with
  | noticed => exact stands
  | recorded b =>
    refine .inr ?_
    rw [RecordQueue.offered_push]
    rcases stands with same | more
    · rw [same]
      omega
    · omega

/-- A step that changes the lost count writes the list of records too. -/
theorem changedKeys_lost {old new : StoreImage}
    (counts : new.records.offered = old.records.offered → new.records.lost = old.records.lost)
    (lost : .lost ∈ changedKeys old new) : .records ∈ changedKeys old new := by
  obtain ⟨-, written⟩ := mem_differing lost
  refine (records_and_lost_together fun same => ?_).1
  have kept := counts same.symm
  simp [writesItem, sameItem, same, kept] at written

/-- The writes of a step that only offers records are of the list and the count together (R178). -/
theorem pairedKeys_stepWrites {old new : StoreImage}
    (records : new.records = old.records ∨ old.records.offered < new.records.offered) {w : StepWrites}
    (made : w ∈ stepWrites old new) : pairedKeys w.keys := by
  have early (a b : StoreImage) : .records ∉ differing earlyKeys a b ∧ .lost ∉ differing earlyKeys a b := by
    constructor <;> intro own <;> exact absurd (mem_differing own).1 (by simp [earlyKeys])
  have late : pairedKeys (differing lateKeys old new) := by
    unfold pairedKeys
    rw [differing_eq]
    rcases records with same | more
    · simp [lateKeys, writesItem, sameItem, same]
    · simp [lateKeys, writesItem, sameItem, more.ne]
  simp only [stepWrites, List.mem_filter, List.mem_cons, List.not_mem_nil, or_false] at made
  obtain ⟨rfl | rfl, -⟩ := made
  · simp [pairedKeys, early]
  · unfold pairedKeys at late ⊢
    simp [List.mem_append, early, late]

theorem State.recordsTogether_endEvent {s t : State} (h : s.recordsTogether) (path : s.queuePath t) (d : Deadline) :
    (s.endEvent t d).recordsTogether := by
  intro w listed
  obtain ⟨-, -, unsaved, -, -⟩ := path.frame
  change w ∈ writesOf _ at listed
  rw [State.endEvent_writesOf, unsaved] at listed
  rcases List.mem_append.mp listed with old | new
  · exact h w old
  · exact pairedKeys_stepWrites path.records new

/-- What a request that is taken leaves due, and how it counts records. -/
theorem State.taken.recordsTogether {s new : State} (taken : s.taken new) (h : s.recordsTogether) :
    new.recordsTogether ∧ (new.records.offered = s.records.offered → new.records.lost = s.records.lost) := by
  cases taken with
  | offered path =>
    obtain ⟨-, -, unsaved, -, -⟩ := path.frame
    refine ⟨fun w listed => h w (unsaved ▸ listed), fun same => ?_⟩
    rcases path.records with kept | more
    · rw [kept]
    · omega
  | records n same =>
    have unsaved : new.unsaved = s.unsaved := congrArg QueueView.unsaved same
    exact ⟨fun w listed => h w (unsaved ▸ listed), fun _ => congrArg (fun m => m.records.lost) same⟩
  | notices p same =>
    have unsaved : new.unsaved = s.unsaved := congrArg QueueView.unsaved same
    exact ⟨fun w listed => h w (unsaved ▸ listed), fun _ => congrArg (fun m => m.records.lost) same⟩
  | hook c hook same =>
    subst same
    refine ⟨fun w listed => ?_, fun _ => rfl⟩
    obtain ⟨v, mem, rfl⟩ := mem_writesOf_writeNow listed
    exact pairedKeys.without (h v mem) (by simp [pairedKeys])

/-- A request that writes the list of records or the lost count over due ones writes both. -/
theorem State.recordsTogether_writeNow {s : State} (h : s.recordsTogether) {keys : List StoreKey}
    (lost : .lost ∈ keys → .records ∈ keys) :
    (s.writeNow (withDueLost (s.unsaved.flatMap DueStep.keys) keys)).recordsTogether := by
  intro w listed
  obtain ⟨v, mem, rfl⟩ := mem_writesOf_writeNow listed
  by_cases due : .lost ∈ s.unsaved.flatMap DueStep.keys
  · refine pairedKeys.without (h v mem) ?_
    unfold pairedKeys
    rw [mem_withDueLost, mem_withDueLost]
    simp only [reduceCtorEq, false_and, or_false, true_and]
    tauto
  · have noLost : .lost ∉ v.keys := fun own => due (mem_flatMap_keys.mpr ⟨v, mem, own⟩)
    have noRecords : .records ∉ v.keys := fun own => noLost ((h v mem).mp own)
    change pairedKeys _
    simp [pairedKeys, List.mem_filter, noLost, noRecords]

/-- That the list of records and the lost count are due together is a law that every part of a step keeps. -/
theorem recordsTogether_stepLaw : StepLaw State.recordsTogether where
  linked _ _ _ h := h
  event d _ path h := State.recordsTogether_endEvent h path d
  request {s new} _ taken h := by
    obtain ⟨together, counts⟩ := taken.recordsTogether h
    have judged : (s.judgeStill new).recordsTogether := fun w listed => together w (by simpa using listed)
    refine State.recordsTogether_writeNow (State.recordsTogether_writeDue judged .lapse) fun lost => ?_
    refine changedKeys_lost ?_ lost
    rw [State.judgeStill_image]
    exact counts
  due d _ h := State.recordsTogether_writeDue h d
  disturbed _ h := h
  scrubbed _ h := h
  flushed _ _ := fun _ listed => nomatch listed
  stopped _ _ _ _ h := h
  restarted s := fun w listed => by simp [s.restartWhole_store.2] at listed

/-- Settles O10: what an event changes becomes due and what a request changes is written, the last write of an item being its working
copy; and a queued or counted record brings the list and the count together. -/
theorem store_follows_the_working_copies : Obligations.Store_follows_the_working_copies := fun _ _ h =>
  ⟨fun current => storeCurrent_stepLaw.step current h, fun together => recordsTogether_stepLaw.step together h⟩

end Sys2Proof.Machine

namespace Sys2Proof.Machine

/-! ### Lengths of fields and layouts -/

@[simp] theorem length_u48 (v : Nat) : (u48 v).length = 6 := length_le 6 v
@[simp] theorem length_massBytes (m : Int) : (massBytes m).length = 4 := length_le 4 _
@[simp] theorem length_markedMass (m : Option Int) : (markedMass m).length = 4 := length_massBytes _

theorem length_flatMap_const {α : Type} {f : α → List Byte} {n : Nat} (each : ∀ x, (f x).length = n) (xs : List α) :
    (xs.flatMap f).length = n * xs.length := by
  induction xs with
  | nil => rfl
  | cons x xs ih => simp only [List.flatMap_cons, List.length_append, each, ih, List.length_cons]; ring

@[simp] theorem DipRecord.length_bytes (d : DipRecord) : d.bytes.length = 31 := by simp [DipRecord.bytes]

@[simp] theorem JobClosedRecord.length_bytes (r : JobClosedRecord) : r.bytes.length = 33 := by
  simp [JobClosedRecord.bytes]

/-- The common part of a record is five bytes (R180). -/
@[simp] theorem Record.length_bytes (r : Record) : r.bytes.length = r.body.bytes.length + 5 := by
  simp only [Record.bytes, List.length_append, length_u8, length_u16]; omega

/-- Bytes 1 and 2 of a record are its length field. -/
theorem Record.lengthField (r : Record) : (r.bytes.drop 1).take 2 = u16 (r.body.bytes.length + 5) := rfl

theorem RecordBody.length_allocation (zc : Nat) (pairs : List (Nat × Nat)) :
    (RecordBody.allocation zc pairs).bytes.length = 5 + 7 * pairs.length := by
  have pair : ∀ p : Nat × Nat, (u24 p.1 ++ u32 p.2).length = 7 := fun p => by simp
  simp only [RecordBody.bytes, List.length_append, length_u32, length_u8, length_flatMap_const pair]

theorem RecordBody.length_restart (abandoned : List LiveEntry) (damaged : List DamagedItem) :
    (RecordBody.restart abandoned damaged).bytes.length = 2 + 3 * abandoned.length + 2 * damaged.length := by
  have entry : ∀ e : LiveEntry, (u16 e.entry ++ u8 e.holders.code).length = 3 := fun e => by simp
  have item : ∀ d : DamagedItem, (u8 d.region ++ u8 d.index).length = 2 := fun d => by simp
  simp only [RecordBody.bytes, List.length_append, length_u8, length_flatMap_const entry, length_flatMap_const item]

/-- Settles O17: the length field is read back from its two bytes, and each layout's length is the sum of its fields'. -/
theorem records_have_the_length_they_give : Obligations.Records_have_the_length_they_give := by
  refine ⟨fun r room => ?_, fun g => ⟨?_, ?_, ?_, ?_, ?_, ?_, ?_, fun zc ps => ?_, ?_, ?_, fun as ds => ?_⟩⟩
  case refine_1 => rw [Record.lengthField, Record.length_bytes]; exact fromLe_u16 (r.length_bytes ▸ room)
  case refine_9 => rw [Record.length_bytes, RecordBody.length_allocation]; omega
  case refine_12 => rw [Record.length_bytes, RecordBody.length_restart]; omega
  all_goals simp [RecordBody.bytes]

/-! ### Joining a queue (R178, R185) -/

theorem RecordQueue.push_of_room {q : RecordQueue} (b : RecordBody) (room : q.items.length < 32) :
    q.push b =
      { items := q.items ++ [{ gap := if 0 < q.lost then some q.lost else none, body := b }], lost := 0
        offered := q.offered + 1 } := by
  simp [RecordQueue.push, Config.recordRoom, room, Nat.pos_iff_ne_zero]

theorem RecordQueue.push_of_full {q : RecordQueue} (b : RecordBody) (full : 32 ≤ q.items.length) :
    q.push b = { q with lost := min (q.lost + 1) 65535, offered := q.offered + 1 } := by
  simp [RecordQueue.push, Config.recordRoom, Nat.not_lt.mpr full, Config.max16]

theorem NoticeQueue.push_of_room {q : NoticeQueue} (n : Notice) (room : q.items.length < 16) :
    q.push n = { q with items := q.items ++ [n] } := by
  simp [NoticeQueue.push, Config.noticeRoom, room]

theorem NoticeQueue.push_of_full {q : NoticeQueue} (n : Notice) (full : 16 ≤ q.items.length) :
    q.push n = { q with overflow := true } := by
  simp [NoticeQueue.push, Config.noticeRoom, Nat.not_lt.mpr full]

/-! ### TAKE RECORDS (R183) -/

/-- `k` records are as many from the head as were asked for, as there are and as fit in `room` bytes. -/
structure FitsMost (n room : Nat) (rs : List Record) (k : Nat) : Prop where
  asked : k ≤ n
  there : k ≤ rs.length
  fits : ((rs.take k).flatMap Record.bytes).length ≤ room
  most : k = n ∨ k = rs.length ∨ room < ((rs.take (k + 1)).flatMap Record.bytes).length

theorem fitsMost_fitting (n room : Nat) (rs : List Record) : FitsMost n room rs (fitting n room rs) := by
  induction n generalizing room rs with
  | zero => exact ⟨Nat.le_refl 0, Nat.zero_le _, Nat.zero_le _, .inl rfl⟩
  | succ n ih =>
    cases rs with
    | nil => exact ⟨Nat.zero_le _, Nat.le_refl 0, Nat.zero_le _, .inr (.inl rfl)⟩
    | cons r rs =>
      rw [fitting]
      split
      · rename_i whole
        obtain ⟨asked, there, fits, most⟩ := ih (room - r.bytes.length) rs
        have headBytes : ∀ j, (((r :: rs).take (j + 1)).flatMap Record.bytes).length =
            r.bytes.length + ((rs.take j).flatMap Record.bytes).length := fun j => by
          simp only [List.take_succ_cons, List.flatMap_cons, List.length_append]
        have length := List.length_cons (a := r) (as := rs)
        exact ⟨by omega, by omega, by rw [headBytes]; omega, by rw [headBytes]; omega⟩
      · rename_i tooLong
        refine ⟨Nat.zero_le _, Nat.zero_le _, Nat.zero_le _, .inr (.inr ?_)⟩
        simpa using tooLong

theorem takeRecordsRule_outside {b : Byte} {s : State} (outside : b.toNat = 0 ∨ 8 < b.toNat) :
    takeRecordsRule [b] s = .refused .badValue := by
  simp [takeRecordsRule, outside]

theorem takeRecordsRule_inside {b : Byte} {s : State} (low : 1 ≤ b.toNat) (high : b.toNat ≤ 8) :
    let k := s.records.taken b.toNat
    takeRecordsRule [b] s =
      .done (u8 k ++ u8 (s.records.items.length - k) ++ u16 s.records.lost ++
          (s.records.items.take k).flatMap Record.bytes)
        { s with records := { s.records with items := s.records.items.drop k } } := by
  have inside : ¬(b.toNat = 0 ∨ 8 < b.toNat) := by omega
  simp [takeRecordsRule, inside]

/-! ### TAKE NOTICE (R187) -/

theorem takeNoticeRule_eq (p : Port) (s : State) :
    let q := s.notices.get p
    takeNoticeRule p s =
      .done (u8 (min 4 q.items.length) ++ u8 (q.items.length - 4) ++ u8 (if q.overflow then 1 else 0) ++
          (q.items.take 4).flatMap Notice.bytes)
        { s with notices := s.notices.set p { items := q.items.drop 4, overflow := false } } := by
  simp [takeNoticeRule, yesNo]

/-- Settles O58: a push by whether there is room, a take by what its rule answers and leaves. -/
theorem queues_join_at_the_tail_and_leave_at_the_head :
    Obligations.Queues_join_at_the_tail_and_leave_at_the_head := by
  refine ⟨fun q b => ⟨RecordQueue.push_of_room b, RecordQueue.push_of_full b⟩,
    fun q n => ⟨NoticeQueue.push_of_room n, NoticeQueue.push_of_full n⟩,
    fun s b takes => ⟨fun outside => ?_, fun low high => ?_⟩, fun s p takes => ?_⟩
  · exact exec_refused (r := .takeRecords) rfl takes rfl rfl (takeRecordsRule_outside outside)
  · obtain ⟨asked, there, fits, most⟩ := fitsMost_fitting b.toNat (Config.answerRoom - 4) s.records.items
    exact ⟨s.records.taken b.toNat, asked, there, fits, most,
      exec_done (r := .takeRecords) rfl takes rfl rfl (takeRecordsRule_inside low high)⟩
  · exact exec_done (r := .takeNotice) rfl takes (by cases p <;> rfl) rfl (takeNoticeRule_eq p s)

end Sys2Proof.Machine

namespace Sys2Proof.Machine

/-! ### A restart with words disturbed -/

/-- A stopped part as power-on finds it with its store disturbed. -/
def State.disturbed (s : State) (us : List Upset) : State := { s.powered with store := s.store.disturb us }

/-- Power-on restarts a stopped part that is not held in reset, over the store with its words disturbed (R194). -/
theorem exec_powerOn_disturbed {s : State} (stopped : s.phase = .flushed) (reset : s.inputs.resetAsserted = false)
    (us : List Upset) : exec (.powerOn us none) s = .next (s.disturbed us).restartWhole := by
  have notRunning : s.phase ≠ .running := by simp [stopped]
  exact congrArg Host.Outcome.next ((if_neg notRunning).trans
    (State.tryRestart_of_ready (s := s.powered) stopped reset rfl rfl us none))

/-- The word that a disturbance of a sound store leaves in error. -/
def wordInError (u : Upset) : BadWord := { key := u.key, pos := u.pos, word := u.word, wrong := 0, bits := u.bits }

theorem errorCount_zero : errorCount 0 = 0 := by decide

theorem Store.disturb_one {st : Store} (sound : st.flips = []) {u : Upset} (struck : errorCount u.bits ≠ 0) :
    st.disturb [u] = { st with flips := [wordInError u] } := by
  have bits : u.bits ≠ 0 := fun none => struck (none ▸ errorCount_zero)
  simpa [Store.disturb, upsetWord, sound, BadWord.listed, wordInError] using bits

theorem decodeWord_one {bits : WordBits} (one : errorCount bits = 1) : decodeWord bits = .corrected := by
  simp [decodeWord, one]

theorem decodeWord_two {bits : WordBits} (two : errorCount bits = 2) : decodeWord bits = .damaged := by
  simp [decodeWord, two]

/-! ### Words in error that read as they were written (R191) -/

/-- No word of a store reads damaged or otherwise than it was written. -/
def Store.readsTrue (st : Store) : Prop := ∀ b ∈ st.flips, decodeWord b.bits ≠ .damaged ∧ b.reads = 0

section ReadsTrue

variable {st : Store} (faithful : st.readsTrue)

include faithful

theorem Store.misread_of_readsTrue : st.misread = st.image := by
  have none : st.flips.filter (fun b => decodeWord b.bits != .damaged && b.reads != 0) = [] :=
    List.filter_eq_nil_iff.mpr fun b listed => by simp [(faithful b listed).2]
  rw [Store.misread, none, List.foldl_nil]

theorem Store.wordsIn_of_readsTrue {k : StoreKey} {pos : Nat} {b : BadWord} (listed : b ∈ st.wordsIn k pos) :
    decodeWord b.bits ≠ .damaged ∧ b.reads = 0 := faithful b (List.mem_of_mem_filter listed)

theorem Store.readItem_of_readsTrue {α : Type} (k : StoreKey) (v : α) : st.readItem k v = some v :=
  if_neg (by simpa using fun b listed => (Store.wordsIn_of_readsTrue faithful listed).1)

theorem Store.readEntry_of_readsTrue {α : Type} (k : StoreKey) (pos : Nat) (v : α) : st.readEntry k pos v = some v := by
  have whole : (st.wordsIn k pos).any (fun b => decodeWord b.bits == .damaged) = false := by
    simpa using fun b listed => (Store.wordsIn_of_readsTrue faithful listed).1
  have asWritten : (((st.wordsIn k pos).map fun b => (b.word, b.reads)).filter fun w => w.2 != 0) = [] := by
    simpa using fun b listed => (Store.wordsIn_of_readsTrue faithful listed).2
  rw [Store.readEntry, readWords, whole, asWritten]
  rfl

/-- Words that read as they were written change nothing of what restart reads. -/
theorem Store.restore_of_readsTrue : st.restore = ({ st with flips := [] } : Store).restore := by
  have sound : ({ st with flips := [] } : Store).flips = [] := rfl
  simp only [Store.restore, Store.readSettings, Store.readSome, Store.readSetting, Store.readClass, Store.readList,
    Store.misread_of_readsTrue faithful, Store.readItem_of_readsTrue faithful, Store.readEntry_of_readsTrue faithful,
    Store.misread_of_sound _ sound, Store.readItem_of_sound sound, Store.readEntry_of_sound sound]

end ReadsTrue

/-- A word with one bit in error reads as it was written. -/
theorem readsTrue_of_one {u : Upset} (one : errorCount u.bits = 1) {img : StoreImage} :
    ({ image := img, flips := [wordInError u] } : Store).readsTrue := by
  intro b listed
  obtain rfl := List.mem_singleton.mp listed
  have decoded : decodeWord (wordInError u).bits = .corrected := decodeWord_one one
  refine ⟨by simp [decoded], ?_⟩
  have few : errorCount (wordInError u).bits ≤ 2 := by
    have : errorCount (wordInError u).bits = 1 := one
    omega
  rw [BadWord.reads, if_pos few]
  rfl

theorem State.restartWhole_phase (s : State) : s.restartWhole.phase = .running := by
  have view := State.released_bookView (s.revived s.store.restore.ended s.store.restore.damaged) s.store.restore.damaged.length
  exact (congrArg BookView.phase view).trans rfl

/-- One bit in error changes nothing at restart (R191, R195). -/
theorem State.powerOn_corrected {s : State} {u : Upset} (stopped : s.phase = .flushed) (sound : s.store.flips = [])
    (one : errorCount u.bits = 1) (reset : s.inputs.resetAsserted = false) :
    ∃ t : State, exec (.powerOn [u] none) s = .next t ∧ exec (.powerOn [] none) s = .next t ∧ t.phase = .running := by
  have disturbed := Store.disturb_one (st := s.store) sound (u := u) (by omega)
  have restore : (s.store.disturb [u]).restore = (s.store.disturb []).restore := by
    rw [disturbed, Store.restore_of_readsTrue (readsTrue_of_one one)]
    simp [Store.disturb, sound]
  refine ⟨_, exec_powerOn_disturbed stopped reset [u], ?_, State.restartWhole_phase _⟩
  rw [exec_powerOn_disturbed stopped reset []]
  exact congrArg Host.Outcome.next (State.restartWhole_congr restore.symm rfl rfl)

end Sys2Proof.Machine

namespace Sys2Proof.Machine

/-! ### What the damage of one item replaces (R195) -/

section Struck

variable (img : StoreImage) (u : Upset)

theorem StoreImage.struck_setup :
    (img.struck u).setup = if u.key = .setup then Setup.default false else img.setup := by
  unfold StoreImage.struck
  split <;> simp [*]
  rfl

theorem StoreImage.struck_hooks :
    (img.struck u).hooks =
      ⟨if u.key = .hook .craneA then Calibration.defaulted else img.hooks.craneA,
        if u.key = .hook .craneB then Calibration.defaulted else img.hooks.craneB⟩ := by
  unfold StoreImage.struck
  split
  case h_3 c key => cases c <;> simp [key, PerCrane.set, Calibration.defaulted]
  all_goals simp [*]

theorem StoreImage.struck_book : (img.struck u).book = if u.key = .book then Book.blank else img.book := by
  unfold StoreImage.struck
  split <;> simp [*]

theorem StoreImage.struck_counter : (img.struck u).counter = if u.key = .counter then 1 else img.counter := by
  unfold StoreImage.struck
  split <;> simp [*]

theorem StoreImage.struck_live : (img.struck u).live = if u.key = .live then [] else img.live := by
  unfold StoreImage.struck
  split <;> simp [*]

theorem StoreImage.struck_period : (img.struck u).period = if u.key = .period then [] else img.period := by
  unfold StoreImage.struck
  split <;> simp [*]

theorem StoreImage.struck_foul : (img.struck u).foul = if u.key = .foul then img.foul.eraseIdx u.pos else img.foul := by
  unfold StoreImage.struck
  split <;> simp [*]

theorem StoreImage.struck_records :
    (img.struck u).records =
      if u.key = .lost then { img.records with lost := 65535 }
      else if u.key = .records then
        { img.records with items := img.records.items.eraseIdx u.pos, lost := min (img.records.lost + 1) 65535 }
      else img.records := by
  unfold StoreImage.struck
  split <;> simp [*]

theorem StoreImage.struck_jobs (i : Nat) :
    (img.struck u).jobs[i]? =
      if u.key = .job i then (img.jobs[i]?).map fun _ => JobSlot.vacant .damaged else img.jobs[i]? := by
  unfold StoreImage.struck
  split
  case h_6 n key =>
    by_cases own : n = i
    · subst own; simp only [key, List.getElem?_set_self', if_true]; rfl
    · simp [key, own]
  all_goals simp [*]

theorem StoreImage.struck_classes (i : Nat) :
    (img.struck u).classes[i]? =
      (img.classes[i]?).map fun k =>
        if u.key = .classFields i then ClassEntry.factory (nextEdition k.edition)
        else if u.key = .classEdition i then { k with edition := 1 } else k := by
  unfold StoreImage.struck
  split
  case h_4 n key => by_cases own : n = i <;> simp [key, own, nextEdition]
  case h_5 n key => by_cases own : n = i <;> simp [key, own]
  all_goals simp [*]

end Struck

/-! ### Settings read one by one (R174) -/

theorem Settings.foldl_put_same {t : Settings} {f : Nat → Int} {ns : List Nat} (same : ∀ n ∈ ns, f n = t.get n) :
    ns.foldl (fun w n => w.put n (f n)) t = t := by
  induction ns with
  | nil => rfl
  | cons n ns ih =>
    rw [List.foldl_cons, same n List.mem_cons_self, Settings.put_get]
    exact ih fun m listed => same m (List.mem_cons_of_mem n listed)

/-- Of settings of which one takes another value, that one is changed. -/
theorem Settings.foldl_put_one {t : Settings} {ns : List Nat} (once : ns.Nodup) {m : Nat} (listed : m ∈ ns) (v : Int) :
    ns.foldl (fun w n => w.put n (if m = n then v else t.get n)) t = t.put m v := by
  obtain ⟨before, after, rfl⟩ := List.append_of_mem listed
  have apart := List.nodup_middle.mp once
  have others : m ∉ before ++ after := (List.nodup_cons.mp apart).1
  simp only [List.mem_append, not_or] at others
  rw [List.foldl_append, List.foldl_cons, Settings.foldl_put_same (t := t), if_pos rfl, Settings.foldl_put_same]
  · intro n there
    have other : m ≠ n := fun same => others.2 (same ▸ there)
    rw [if_neg other, Settings.get_put_other t v (Ne.symm other)]
  · intro n there
    have other : m ≠ n := fun same => others.1 (same ▸ there)
    exact if_neg other

theorem mem_settingNumbers {n : Nat} : n ∈ settingNumbers ↔ 1 ≤ n ∧ n ≤ 21 := by
  simp only [settingNumbers, List.mem_map, List.mem_range, Config.settingCount]
  exact ⟨fun ⟨i, _, _⟩ => by omega, fun _ => ⟨n - 1, by omega, by omega⟩⟩

theorem settingNumbers_nodup : settingNumbers.Nodup := by decide

theorem Settings.upright_of_le {t : Settings} (upright : t.tempLow ≤ t.tempHigh) : t.upright = t := if_neg (by omega)

theorem StoreImage.struck_settings {img : StoreImage} {u : Upset} (upright : img.settings.tempLow ≤ img.settings.tempHigh)
    (named : img.names u) :
    (img.struck u).settings =
      (settingNumbers.foldl (fun t n => t.put n (if u.key = .setting n then Settings.default.get n else img.settings.get n))
        img.settings).upright := by
  by_cases setting : ∃ m, u.key = .setting m
  · obtain ⟨m, key⟩ := setting
    have inside : m ∈ settingNumbers := by
      rw [StoreImage.names, key] at named
      exact mem_settingNumbers.mpr ⟨named.1, named.2.1⟩
    have fold := Settings.foldl_put_one (t := img.settings) settingNumbers_nodup inside (Settings.default.get m)
    have swap : ∀ n, (if StoreKey.setting m = .setting n then Settings.default.get n else img.settings.get n) =
        if m = n then Settings.default.get m else img.settings.get n := fun n => by
      by_cases same : m = n <;> simp [same]
    simp only [key, swap]
    rw [fold, StoreImage.struck, key]
    rfl
  · have other : ∀ n, u.key ≠ .setting n := fun n key => setting ⟨n, key⟩
    simp only [other, if_false]
    rw [Settings.foldl_put_get, Settings.upright_of_le upright, StoreImage.struck]
    split <;> simp_all

/-! ### What a restart reads of a store with one item damaged (R191, R195) -/

/-- The places of a list of which one reads damaged. -/
theorem zipIdx_map_none {α : Type} (xs : List α) (i : Nat) :
    (xs.zipIdx.map fun p => if i = p.2 then none else some p.1) = (xs.map some).set i none := by
  refine List.ext_getElem? fun n => ?_
  rw [List.getElem?_set]
  by_cases own : i = n
  · subst own
    by_cases inside : i < xs.length <;> simp [inside]
  · cases there : xs[n]? <;> simp [own, there]

theorem filterMap_id_set_none {α : Type} (xs : List α) (i : Nat) :
    ((xs.map some).set i none).filterMap id = xs.eraseIdx i := by
  induction xs generalizing i with
  | nil => rfl
  | cons x xs ih => cases i <;> simp_all

theorem badPositions_set_none {α : Type} {xs : List α} {i : Nat} (inside : i < xs.length) :
    badPositions ((xs.map some).set i none) = [i] := by
  have split : (xs.map some).set i none = (xs.take i).map some ++ none :: (xs.drop (i + 1)).map some := by
    rw [List.set_eq_take_append_cons_drop, if_pos (by simpa using inside), List.map_take, List.map_drop]
  have whole (ys : List α) (from' : Nat) :
      (((ys.map some).zipIdx from').filterMap fun p => if p.1.isNone then some p.2 else none) = [] :=
    List.filterMap_eq_nil_iff.mpr fun p listed => by
      obtain ⟨v, -, some⟩ := List.mem_map.mp (List.fst_mem_of_mem_zipIdx listed)
      simp [← some]
  rw [badPositions, split, List.zipIdx_append, List.zipIdx_cons, List.filterMap_append, List.filterMap_cons, whole, whole]
  simp [min_eq_left (Nat.le_of_lt inside)]

theorem StoreImage.names.pos_zero {img : StoreImage} {u : Upset} (named : img.names u) (notFoul : u.key ≠ .foul)
    (notRecords : u.key ≠ .records) : u.pos = 0 := by
  unfold StoreImage.names at named
  split at named <;> simp_all

section OneDamaged

variable {img : StoreImage} {u : Upset} (two : errorCount u.bits = 2)

/-- A sound store with one word damaged. -/
def damagedStore (img : StoreImage) (u : Upset) : Store := { image := img, flips := [wordInError u] }

include two

theorem damagedStore_misread : (damagedStore img u).misread = img := by
  have decoded : decodeWord (wordInError u).bits = .damaged := decodeWord_two two
  simp [Store.misread, damagedStore, decoded]

theorem damagedStore_readEntry {α : Type} (k : StoreKey) (pos : Nat) (v : α) :
    (damagedStore img u).readEntry k pos v = if u.key = k ∧ u.pos = pos then none else some v := by
  have decoded : decodeWord u.bits = .damaged := decodeWord_two two
  by_cases own : u.key = k ∧ u.pos = pos <;>
    simp [Store.readEntry, Store.wordsIn, damagedStore, wordInError, own, readWords, decoded]

theorem damagedStore_readList {α : Type} (k : StoreKey) (xs : List α) :
    (damagedStore img u).readList k xs = if u.key = k then (xs.map some).set u.pos none else xs.map some := by
  simp only [Store.readList, damagedStore_readEntry two]
  by_cases own : u.key = k
  · simpa [own] using zipIdx_map_none xs u.pos
  · simpa [own] using map_zipIdx_fst some xs

theorem damagedStore_readItem {α : Type} (named : img.names u) {k : StoreKey} (notFoul : k ≠ .foul) (notRecords : k ≠ .records)
    (v : α) : (damagedStore img u).readItem k v = if u.key = k then none else some v := by
  have decoded : decodeWord u.bits = .damaged := decodeWord_two two
  by_cases own : u.key = k
  · have first : u.pos = 0 := named.pos_zero (own ▸ notFoul) (own ▸ notRecords)
    simp [Store.readItem, Store.wordsIn, damagedStore, wordInError, own, first, decoded]
  · simp [Store.readItem, Store.wordsIn, damagedStore, wordInError, own]

end OneDamaged

end Sys2Proof.Machine

namespace Sys2Proof.Machine

/-! ### The items that a restart brings back around a damaged one (R195) -/

theorem getD_ite_none {α : Type} (c : Prop) [Decidable c] (v d : α) :
    (if c then none else some v).getD d = if c then d else v := by split <;> rfl

theorem isNone_ite_none {α : Type} (c : Prop) [Decidable c] (v : α) :
    (if c then none else some v).isNone = decide c := by split <;> simp_all

theorem zipIdx_flatMap_damage {β : Type} {region : Nat} {xs : List β} {bad : β → Bool} {flag : Nat → Bool}
    (flagged : ∀ i x, xs[i]? = some x → bad x = flag i) :
    (xs.zipIdx.flatMap fun p => damageEntry region p.2 (bad p.1)) =
      (List.range xs.length).flatMap fun i => damageEntry region i (flag i) := by
  have index : List.range xs.length = xs.zipIdx.map Prod.snd := by
    rw [List.zipIdx_map_snd, List.range_eq_range']
  rw [index, List.flatMap_map]
  refine List.flatMap_congr fun p listed => ?_
  rw [flagged p.2 p.1 (List.mk_mem_zipIdx_iff_getElem?.mp listed)]

@[simp] theorem damageEntry_true (region index : Nat) :
    damageEntry region index true = [{ region := region, index := index }] := rfl

@[simp] theorem damageEntry_false (region index : Nat) : damageEntry region index false = [] := rfl

theorem flatMap_damageEntry_one {region m : Nat} {ns : List Nat} (once : ns.Nodup) (listed : m ∈ ns) :
    (ns.flatMap fun n => damageEntry region n (decide (m = n))) = [{ region := region, index := m }] := by
  obtain ⟨before, after, rfl⟩ := List.append_of_mem listed
  have apart := List.nodup_middle.mp once
  have others : m ∉ before ++ after := (List.nodup_cons.mp apart).1
  have clear {ms : List Nat} (out : m ∉ ms) : (ms.flatMap fun n => damageEntry region n (decide (m = n))) = [] :=
    List.flatMap_eq_nil_iff.mpr fun n there => by
      have other : m ≠ n := fun same => out (same ▸ there)
      simp [damageEntry, other]
  simp only [List.mem_append, not_or] at others
  rw [List.flatMap_append, List.flatMap_cons, clear others.1, clear others.2]
  simp [damageEntry]

section Brought

variable {img : StoreImage} {u : Upset} (two : errorCount u.bits = 2) (named : img.names u) (fits : img.fits)

include two

theorem damagedStore_foul (fits : img.fits) :
    ((damagedStore img u).readList .foul ((damagedStore img u).image.foul.take 16)).filterMap id = (img.struck u).foul := by
  obtain ⟨-, -, -, foul, -⟩ := fits
  change ((damagedStore img u).readList .foul (img.foul.take 16)).filterMap id = _
  rw [List.take_of_length_le foul, damagedStore_readList two, StoreImage.struck_foul]
  split
  · exact filterMap_id_set_none img.foul u.pos
  · simp

include named

theorem damagedStore_readSetting (n : Nat) :
    (damagedStore img u).readSetting n = if u.key = .setting n then none else some (img.settings.get n) := by
  rw [Store.readSetting, damagedStore_misread two, damagedStore_readItem two named (by simp) (by simp)]

theorem damagedStore_readSettings (upright : img.settings.tempLow ≤ img.settings.tempHigh) :
    (damagedStore img u).readSettings = (img.struck u).settings := by
  have value (n : Nat) : ((damagedStore img u).readSetting n).getD (Settings.default.get n) =
      if u.key = .setting n then Settings.default.get n else img.settings.get n := by
    rw [damagedStore_readSetting two named]
    split <;> rfl
  rw [StoreImage.struck_settings upright named, Store.readSettings, Store.readSome]
  simp only [value]
  rfl

theorem damagedStore_jobs :
    (img.jobs.zipIdx.map fun p => (damagedStore img u).readItem (.job p.2) p.1).map slotRestored =
      (img.struck u).jobs.map fun j => { j with openDips := 0 } := by
  refine List.ext_getElem? fun i => ?_
  simp only [List.getElem?_map, List.getElem?_zipIdx, Nat.zero_add, StoreImage.struck_jobs,
    damagedStore_readItem two named (k := .job _) (by simp) (by simp)]
  by_cases own : u.key = .job i <;> cases img.jobs[i]? <;> simp [own, slotRestored, JobSlot.vacant]

theorem damagedStore_classes :
    (img.classes.zipIdx.map fun p => (damagedStore img u).readClass p.2 p.1).map (fun r => classRestored r.1 r.2) =
      (img.struck u).classes := by
  refine List.ext_getElem? fun i => ?_
  simp only [List.getElem?_map, List.getElem?_zipIdx, Nat.zero_add, StoreImage.struck_classes, Store.readClass,
    damagedStore_readItem two named (k := .classFields _) (by simp) (by simp),
    damagedStore_readItem two named (k := .classEdition _) (by simp) (by simp)]
  by_cases fields : u.key = .classFields i
  · cases img.classes[i]? <;> simp [fields, classRestored]
  · by_cases edition : u.key = .classEdition i <;> cases img.classes[i]? <;> simp [fields, edition, classRestored]

include fits

theorem damagedStore_records :
    recordsRestored ((damagedStore img u).readList .records ((damagedStore img u).image.records.items.take Config.recordRoom))
      ((damagedStore img u).readItem .lost img.records.lost) (damagedStore img u).image.records.offered =
      (img.struck u).records := by
  obtain ⟨-, -, -, -, -, items, lost, -⟩ := fits
  change recordsRestored ((damagedStore img u).readList .records (img.records.items.take 32)) _ img.records.offered = _
  rw [List.take_of_length_le items, damagedStore_readItem two named (by simp) (by simp), damagedStore_readList two,
    StoreImage.struck_records]
  by_cases count : u.key = .lost
  · simp [count, recordsRestored, badPositions_map_some, Config.max16]
  · by_cases record : u.key = .records
    · have inside : u.pos < img.records.items.length := by rwa [StoreImage.names, record] at named
      have kept := filterMap_id_set_none img.records.items u.pos
      simpa [record, recordsRestored, badPositions_set_none inside, Config.max16] using kept
    · simp [count, record, recordsRestored, badPositions_map_some, Config.max16, lost]

/-- The items that a restart brings back around a damaged one: as stored, that one replaced, with no dip open and the period list
pruned (R136, R152, R195). -/
theorem damagedStore_restored :
    (damagedStore img u).restore.image = { img.struck u with
      jobs := (img.struck u).jobs.map fun j => { j with openDips := 0 }
      period := prunePeriod (img.struck u).period ((img.struck u).jobs.map fun j => { j with openDips := 0 }) } := by
  obtain ⟨-, -, period, -, live, -, -, upright⟩ := id fits
  have item {α : Type} {k : StoreKey}
      (single : k ∈ [.setup, .hook .craneA, .hook .craneB, .period, .book, .counter, .live]) (v d : α) :
      ((damagedStore img u).readItem k v).getD d = if u.key = k then d else v := by
    rw [damagedStore_readItem two named (by rintro rfl; simp at single) (by rintro rfl; simp at single), getD_ite_none]
  have periodRoom : (if u.key = .period then [] else img.period).take 64 = if u.key = .period then [] else img.period := by
    split
    · rfl
    · exact List.take_of_length_le period
  have liveRoom : (if u.key = .live then [] else img.live).take 3 = if u.key = .live then [] else img.live := by
    split
    · rfl
    · exact List.take_of_length_le live
  simp only [Store.restore, damagedStore_misread two, damagedStore_readSettings two named upright,
    damagedStore_classes two named, damagedStore_jobs two named, damagedStore_records two named fits,
    damagedStore_foul two fits, item, periodRoom, liveRoom, StoreImage.struck_setup,
    StoreImage.struck_hooks, StoreImage.struck_period, StoreImage.struck_book, StoreImage.struck_counter,
    StoreImage.struck_live, List.mem_cons, true_or, or_true]

/-! ### The damaged item list (R196) -/

/-- The damaged item list that a restart enters for one damaged item, region by region. -/
theorem damagedStore_damaged_eq :
    (damagedStore img u).restore.damaged =
      damageEntry 1 0 (decide (u.key = .setup)) ++
        (settingNumbers.flatMap fun n => damageEntry 1 n (decide (u.key = .setting n))) ++
        damageEntry 2 0 (decide (u.key = .hook .craneA)) ++ damageEntry 2 1 (decide (u.key = .hook .craneB)) ++
        ((List.range 16).flatMap fun n => damageEntry 3 n (decide (u.key = .classFields n ∨ u.key = .classEdition n))) ++
        ((List.range 64).flatMap fun n => damageEntry 4 n (decide (u.key = .job n))) ++
        damageEntry 5 0 (decide (u.key = .period)) ++ damageEntry 6 0 (decide (u.key = .book)) ++
        damageEntry 7 u.pos (decide (u.key = .foul)) ++
        damageEntry 8 0 (decide (u.key = .counter)) ++ damageEntry 9 0 (decide (u.key = .live)) ++
        damageEntry 10 (if u.key = .records then 1 else 0) (decide (u.key = .lost ∨ u.key = .records)) := by
  obtain ⟨classes, jobs, -, foul, -, items, -, -⟩ := id fits
  have classList : ((img.classes.zipIdx.map fun p => (damagedStore img u).readClass p.2 p.1).zipIdx.flatMap fun p =>
      damageEntry 3 p.2 (classBad p.1)) =
        (List.range 16).flatMap fun n => damageEntry 3 n (decide (u.key = .classFields n ∨ u.key = .classEdition n)) := by
    rw [zipIdx_flatMap_damage (flag := fun n => decide (u.key = .classFields n ∨ u.key = .classEdition n)) fun i r there => ?_]
    · simp [classes]
    · simp only [List.getElem?_map, List.getElem?_zipIdx, Option.map_map, Option.map_eq_some_iff, Function.comp_apply,
        Nat.zero_add, Store.readClass, damagedStore_readItem two named (k := .classFields _) (by simp) (by simp),
        damagedStore_readItem two named (k := .classEdition _) (by simp) (by simp)] at there
      obtain ⟨k, -, rfl⟩ := there
      simp [classBad, isNone_ite_none]
  have slotList : ((img.jobs.zipIdx.map fun p => (damagedStore img u).readItem (.job p.2) p.1).zipIdx.flatMap fun p =>
      damageEntry 4 p.2 p.1.isNone) = (List.range 64).flatMap fun n => damageEntry 4 n (decide (u.key = .job n)) := by
    rw [zipIdx_flatMap_damage (flag := fun n => decide (u.key = .job n)) fun i r there => ?_]
    · simp [jobs]
    · simp only [List.getElem?_map, List.getElem?_zipIdx, Option.map_map, Option.map_eq_some_iff, Function.comp_apply,
        Nat.zero_add, damagedStore_readItem two named (k := .job _) (by simp) (by simp)] at there
      obtain ⟨j, -, rfl⟩ := there
      exact isNone_ite_none _ _
  have foulList : ((badPositions ((damagedStore img u).readList .foul ((damagedStore img u).image.foul.take 16))).map fun i =>
      ({ region := 7, index := i } : DamagedItem)) = damageEntry 7 u.pos (decide (u.key = .foul)) := by
    change (badPositions ((damagedStore img u).readList .foul (img.foul.take 16))).map _ = _
    rw [List.take_of_length_le foul, damagedStore_readList two]
    split
    · rename_i key
      have inside : u.pos < img.foul.length := by rwa [StoreImage.names, key] at named
      simp [badPositions_set_none inside, damageEntry, key]
    · rename_i key
      simp [badPositions_map_some, damageEntry, key]
  have recordList :
      let read := (damagedStore img u).readList .records ((damagedStore img u).image.records.items.take Config.recordRoom)
      damageEntry 10 (badPositions read).length (decide (u.key = .lost) || read.any Option.isNone) =
        damageEntry 10 (if u.key = .records then 1 else 0) (decide (u.key = .lost ∨ u.key = .records)) := by
    intro read
    have whole : read = (damagedStore img u).readList .records img.records.items :=
      congrArg ((damagedStore img u).readList .records) (List.take_of_length_le items)
    rw [whole, damagedStore_readList two]
    split
    · rename_i key
      have inside : u.pos < img.records.items.length := by rwa [StoreImage.names, key] at named
      have found : ((img.records.items.map some).set u.pos none).any Option.isNone = true :=
        List.any_eq_true.mpr ⟨none, List.mem_set (by simpa using inside) none, rfl⟩
      simp [badPositions_set_none inside, key, found]
    · rename_i key
      have none : (img.records.items.map some).any Option.isNone = false := by simp
      simp only [badPositions_map_some, none, key, or_false, Bool.or_false, List.length_nil]
  simp only [Store.restore, damagedStore_misread two, classList, slotList, foulList, damagedStore_readSetting two named,
    damagedStore_readItem two named (k := .setup) (by simp) (by simp),
    damagedStore_readItem two named (k := .hook _) (by simp) (by simp),
    damagedStore_readItem two named (k := .period) (by simp) (by simp),
    damagedStore_readItem two named (k := .book) (by simp) (by simp),
    damagedStore_readItem two named (k := .counter) (by simp) (by simp),
    damagedStore_readItem two named (k := .live) (by simp) (by simp),
    damagedStore_readItem two named (k := .lost) (by simp) (by simp), isNone_ite_none, recordList]

/-- The damaged item list of one damaged item enters that item alone (R196). -/
theorem damagedStore_damaged : (damagedStore img u).restore.damaged = [damageOf u] := by
  rw [damagedStore_damaged_eq two named fits, damageOf]
  rw [StoreImage.names] at named
  have numbered {region m count : Nat} (listed : m < count) :=
    flatMap_damageEntry_one (region := region) (List.nodup_range (n := count)) (List.mem_range.mpr listed)
  have clear (ns : List Nat) : ns.flatMap (fun _ => ([] : List DamagedItem)) = [] :=
    List.flatMap_eq_nil_iff.mpr fun _ _ => rfl
  cases key : u.key with
  | setting m =>
    rw [key] at named
    simp [flatMap_damageEntry_one settingNumbers_nodup (mem_settingNumbers.mpr ⟨named.1, named.2.1⟩), regionOf, clear]
  | classFields m | classEdition m | job m =>
    rw [key] at named
    simp [numbered named.1, regionOf, clear]
  | hook c => cases c <;> simp [regionOf, clear]
  | _ => simp [regionOf, clear]

end Brought

end Sys2Proof.Machine

namespace Sys2Proof.Machine

/-! ### What a restart tells of a damaged item (R60, R106, R196) -/

/-- A notice stands in a port's queue. -/
def State.told (s : State) (p : Port) (n : Notice) : Prop := n ∈ (s.notices.get p).items

/-- No notice queue holds more than `k` notices. -/
def State.noticesWithin (s : State) (k : Nat) : Prop := ∀ p : Port, (s.notices.get p).items.length ≤ k

theorem NoticeQueue.length_push_le (q : NoticeQueue) (n : Notice) : (q.push n).items.length ≤ q.items.length + 1 := by
  unfold NoticeQueue.push
  split <;> simp

theorem NoticeQueue.mem_push_of_mem {q : NoticeQueue} {m : Notice} (n : Notice) (there : m ∈ q.items) : m ∈ (q.push n).items := by
  unfold NoticeQueue.push
  split <;> simp [there]

theorem State.told.notify {s : State} {p : Port} {n : Notice} (told : s.told p n) (q : Port) (m : Notice) :
    (s.notify q m).told p n := by
  unfold State.told State.notify
  by_cases own : p = q
  · subst own
    rw [PerPort.get_set_same]
    exact NoticeQueue.mem_push_of_mem m told
  · rw [PerPort.get_set_other _ _ own]
    exact told

theorem State.noticesWithin.notify {s : State} {k : Nat} (within : s.noticesWithin k) (q : Port) (m : Notice) :
    (s.notify q m).noticesWithin (k + 1) := by
  intro p
  unfold State.notify
  by_cases own : p = q
  · subst own
    rw [PerPort.get_set_same]
    exact (NoticeQueue.length_push_le _ m).trans (Nat.succ_le_succ (within p))
  · rw [PerPort.get_set_other _ _ own]
    exact (within p).trans (Nat.le_succ k)

theorem State.notify_told {s : State} {k : Nat} (within : s.noticesWithin k) (room : k < 16) (p : Port) (n : Notice) :
    (s.notify p n).told p n := by
  unfold State.told State.notify
  rw [PerPort.get_set_same, NoticeQueue.push_of_room n (Nat.lt_of_le_of_lt (within p) room)]
  simp

/-- Queueing notices of a restart: those that stand stay, and no queue grows by more than a few. -/
structure State.addsNotices (s t : State) (more : Nat) : Prop where
  keeps : ∀ p n, s.told p n → t.told p n
  grows : ∀ k, s.noticesWithin k → t.noticesWithin (k + more)

theorem State.noticeDefaulted_adds (s : State) (c : Crane) : s.addsNotices (s.noticeDefaulted c) 1 := by
  unfold State.noticeDefaulted
  split
  · exact ⟨fun _ _ told => told, fun _ within p => (within p).trans (Nat.le_succ _)⟩
  · exact ⟨fun _ _ told => told.notify .., fun _ within => within.notify _ _⟩

theorem State.noticeInvalid_adds (s : State) : s.addsNotices s.noticeInvalid 2 := by
  unfold State.noticeInvalid
  split
  · exact ⟨fun _ _ told => (told.notify ..).notify .., fun _ within => (within.notify _ _).notify _ _⟩
  · exact ⟨fun _ _ told => told, fun _ within p => (within p).trans (Nat.le_add_right _ _)⟩

theorem State.noticeDamage_adds (s : State) (count : Nat) : s.addsNotices (s.noticeDamage count) 1 := by
  unfold State.noticeDamage
  split
  · exact ⟨fun _ _ told => told, fun _ within p => (within p).trans (Nat.le_succ _)⟩
  · exact ⟨fun _ _ told => told.notify .., fun _ within => within.notify _ _⟩

theorem State.judgeFeed_keeps {s : State} {p : Port} {n : Notice} (told : s.told p n) : s.judgeFeed.told p n := by
  unfold State.judgeFeed
  split
  · exact State.told.notify (s := { s with lines := _ }) told ..
  · exact told

section Told

variable {s : State} (fresh : s.noticesWithin 0)

include fresh

/-- The notice of a DEFAULTED hook stands in its crane's queue when a restart ends (R60, R198). -/
theorem State.restartNotices_told_fault {c : Crane} (defaulted : (s.hooks.get c).cal.calibrated = false) (count : Nat) :
    (s.restartNotices count).told c.port (.hookFault c) := by
  have queued {t : State} {k : Nat} (within : t.noticesWithin k) (room : k < 16)
      (same : (t.hooks.get c).cal.calibrated = false) : (t.noticeDefaulted c).told c.port (.hookFault c) := by
    rw [State.noticeDefaulted, same]
    exact State.notify_told within room ..
  have both : ((s.noticeDefaulted .craneA).noticeDefaulted .craneB).told c.port (.hookFault c) := by
    cases c with
    | craneA => exact (State.noticeDefaulted_adds _ _).keeps _ _ (queued fresh (by omega) defaulted)
    | craneB =>
      refine queued ((State.noticeDefaulted_adds s _).grows 0 fresh) (by omega) ?_
      rwa [State.noticeDefaulted_frame]
  exact State.judgeFeed_keeps ((State.noticeDamage_adds _ _).keeps _ _ ((State.noticeInvalid_adds _).keeps _ _ both))

theorem State.hooksNoticed_within : ((s.noticeDefaulted .craneA).noticeDefaulted .craneB).noticesWithin 2 :=
  (State.noticeDefaulted_adds _ _).grows 1 ((State.noticeDefaulted_adds _ _).grows 0 fresh)

/-- The notice of an INVALID book stands in the feed's and the office's queue when a restart ends (R106, R198). -/
theorem State.restartNotices_told_invalid (invalid : s.book.state = .invalid) (count : Nat) :
    (s.restartNotices count).told .feed .bookInvalid ∧ (s.restartNotices count).told .office .bookInvalid := by
  have within := State.hooksNoticed_within fresh
  have book : ((s.noticeDefaulted .craneA).noticeDefaulted .craneB).book.state = .invalid := by
    rwa [State.noticeDefaulted_frame, State.noticeDefaulted_frame s]
  have later {p : Port} (told : ((s.noticeDefaulted .craneA).noticeDefaulted .craneB).noticeInvalid.told p .bookInvalid) :
      (s.restartNotices count).told p .bookInvalid :=
    State.judgeFeed_keeps ((State.noticeDamage_adds _ _).keeps _ _ told)
  constructor
  · refine later ?_
    rw [State.noticeInvalid, if_pos book]
    exact (State.notify_told within (by omega) ..).notify ..
  · refine later ?_
    rw [State.noticeInvalid, if_pos book]
    exact State.notify_told (within.notify _ _) (by omega) ..

/-- The notice of a damaged item list that is not empty stands in the office's queue when a restart ends (R196, R198). -/
theorem State.restartNotices_told_damage {count : Nat} (some : count ≠ 0) :
    (s.restartNotices count).told .office (.storeDamage count) := by
  have within := (State.noticeInvalid_adds _).grows 2 (State.hooksNoticed_within fresh)
  refine State.judgeFeed_keeps ?_
  rw [State.noticeDamage, if_neg some]
  exact State.notify_told within (by omega) ..

end Told

/-! ### The lane map that a restart rebuilds (R2, R24) -/

theorem foldl_takeSpan_foul_holder (foul : List FoulItem) (lanes : List Lane) (i : Nat) :
    ((foul.foldl (fun lanes it => takeSpan lanes { f := it.f, l := it.l } .foul it.entry) lanes)[i]?).map Lane.holder =
      (lanes[i]?).map fun ln => if ∃ it ∈ foul, it.f ≤ i ∧ i ≤ it.l then .foul else ln.holder := by
  induction foul generalizing lanes with
  | nil => simp
  | cons it rest ih =>
    rw [List.foldl_cons, ih, takeSpan_getElem?, Option.map_map]
    refine Option.map_congr fun ln _ => ?_
    simp only [Function.comp_apply, List.exists_mem_cons_iff, Span.holds_iff]
    by_cases later : ∃ it ∈ rest, it.f ≤ i ∧ i ≤ it.l <;> by_cases own : it.f ≤ i ∧ i ≤ it.l <;> simp [later, own]

theorem lanesRestored_holder (foul : List FoulItem) {i : Nat} (inside : i < 16) :
    ((lanesRestored foul)[i]?).map Lane.holder = some (if ∃ it ∈ foul, it.f ≤ i ∧ i ≤ it.l then .foul else .free) := by
  have free : freeLanes[i]? = some Lane.free := by
    rw [freeLanes, List.getElem?_replicate, if_pos (show i < Config.laneCount from inside)]
  rw [lanesRestored, foldl_takeSpan_foul_holder, free]
  rfl

end Sys2Proof.Machine

namespace Sys2Proof.Machine

/-! ### A restart over one damaged item (R195, R196, R198) -/

theorem regionOf_inside (k : StoreKey) : 1 ≤ regionOf k ∧ regionOf k ≤ 10 := by
  cases k <;> simp [regionOf]

theorem damagedRegions_one (u : Upset) : damagedRegions [damageOf u] = [regionOf u.key] := by
  have inside := regionOf_inside u.key
  have region : (damageOf u).region = regionOf u.key := rfl
  generalize damageOf u = d at region
  unfold damagedRegions
  simp only [List.any_cons, List.any_nil, Bool.or_false, region]
  generalize regionOf u.key = r at inside ⊢
  obtain ⟨low, high⟩ := inside
  interval_cases r <;> rfl

/-- The period list without the entries that name no OPEN or CLOSING slot (R152), as a restart prunes it. -/
theorem prunePeriod_openDips (period : List PeriodEntry) (jobs : List JobSlot) :
    prunePeriod period (jobs.map fun j => { j with openDips := 0 }) =
      period.filter fun e => ∃ j ∈ jobs[e.slot]?, j.state = .opened ∨ j.state = .closing := by
  refine List.filter_congr fun e _ => ?_
  cases slot : jobs[e.slot]? with
  | none => simp [List.getD_eq_getElem?_getD, slot, JobSlot.vacant]
  | some j => cases state : j.state <;> simp [List.getD_eq_getElem?_getD, slot, state]

theorem StoreImage.struck_hook_fault {img : StoreImage} {u : Upset} {c : Crane} (key : u.key = .hook c) :
    (img.struck u).hooks.get c = Calibration.defaulted := by
  rw [StoreImage.struck_hooks, key]
  cases c <;> rfl

/-- The items that a restart leaves around a damaged one (R136, R152, R195, R198). -/
def StoreImage.struckEnded (img : StoreImage) (u : Upset) : StoreImage :=
  { img.struck u with
    jobs := (img.struck u).jobs.map fun j => { j with openDips := 0 }
    period := (img.struck u).period.filter fun e => ∃ j ∈ (img.struck u).jobs[e.slot]?, j.state = .opened ∨ j.state = .closing
    live := []
    records := (img.struck u).records.push (.restart (img.struck u).live [damageOf u]) }

section OneDamaged

variable {s : State} {u : Upset} (sound : s.store.flips = []) (fits : s.store.image.fits) (named : s.store.image.names u)
  (two : errorCount u.bits = 2)

include sound fits named two

theorem State.disturbed_restore :
    (s.disturbed [u]).store.restore.ended = s.store.image.struckEnded u ∧
      (s.disturbed [u]).store.restore.damaged = [damageOf u] := by
  have store : (s.disturbed [u]).store = damagedStore s.store.image u := Store.disturb_one (st := s.store) sound (by omega)
  have damaged := damagedStore_damaged two named fits
  refine ⟨?_, by rw [store, damaged]⟩
  rw [store, Restored.ended, damaged, damagedStore_restored two named fits, prunePeriod_openDips]
  rfl

/-- The state that a restart over one damaged item brings up before its notices. -/
def State.revivedStruck (s : State) (u : Upset) : State :=
  (s.disturbed [u]).revived (s.store.image.struckEnded u) [damageOf u]

theorem State.disturbed_restartWhole (high : s.inputs.stopLow = false) :
    (s.disturbed [u]).restartWhole = ((s.revivedStruck u).restartNotices 1).judgeLines := by
  obtain ⟨ended, damaged⟩ := State.disturbed_restore sound fits named two
  rw [State.restartWhole, ended, damaged, State.released_eq]
  exact congrArg State.judgeLines (if_neg (by simp [State.revived, State.disturbed, State.powered, high]))

end OneDamaged

/-- Two bits in error damage their item, and a restart brings back every other: the damage is recorded, flagged and told (R195, R196,
R198). -/
theorem State.powerOn_damaged {s : State} {u : Upset} (stopped : s.phase = .flushed) (sound : s.store.flips = [])
    (fits : s.store.image.fits) (named : s.store.image.names u) (two : errorCount u.bits = 2)
    (reset : s.inputs.resetAsserted = false) (high : s.inputs.stopLow = false) :
    ∃ t : State, exec (.powerOn [u] none) s = .next t ∧ t.phase = .running ∧ t.mode = .held ∧
      t.image = s.store.image.struckEnded u ∧
      t.damage = [regionOf u.key] ∧ t.store = { image := t.image, flips := [] } ∧ t.told .office (.storeDamage 1) ∧
      (∀ c : Crane, u.key = .hook c → (t.hooks.get c).health = .fault ∧ t.told c.port (.hookFault c)) ∧
      (u.key = .book → t.told .feed .bookInvalid ∧ t.told .office .bookInvalid) ∧
      ∀ i : Nat, i < 16 → (t.lanes[i]?).map Lane.holder =
        some (if ∃ it ∈ t.foul, it.f ≤ i ∧ i ≤ it.l then .foul else .free) := by
  have fresh : (s.revivedStruck u).noticesWithin 0 := fun p => by cases p <;> exact Nat.le_refl 0
  have frame : (s.disturbed [u]).restartWhole = { s.revivedStruck u with
      notices := ((s.revivedStruck u).restartNotices 1).notices, lines := (s.disturbed [u]).restartWhole.lines } := by
    rw [State.disturbed_restartWhole sound fits named two high, State.restartNotices_frame]
    rfl
  obtain ⟨store, -⟩ := State.restartWhole_store (s.disturbed [u])
  have defaulted {c : Crane} (key : u.key = .hook c) :
      (s.revivedStruck u).hooks.get c = Hook.restarted Calibration.defaulted := by
    rw [← StoreImage.struck_hook_fault (img := s.store.image) key]
    cases c <;> rfl
  refine ⟨_, exec_powerOn_disturbed stopped reset [u], ?_⟩
  generalize (s.disturbed [u]).restartWhole.lines = lines at frame
  rw [frame] at store ⊢
  refine ⟨rfl, rfl, rfl, damagedRegions_one u, store, ?_, fun c key => ⟨?_, ?_⟩, fun key => ?_,
    fun i inside => lanesRestored_holder _ inside⟩
  · exact State.restartNotices_told_damage fresh (by omega)
  · change ((s.revivedStruck u).hooks.get c).health = .fault
    rw [defaulted key]
    rfl
  · exact State.restartNotices_told_fault fresh (by rw [defaulted key]; rfl) 1
  · refine State.restartNotices_told_invalid fresh ?_ 1
    change (s.store.image.struck u).book.state = .invalid
    rw [StoreImage.struck_book, if_pos key]
    rfl

end Sys2Proof.Machine

namespace Sys2Proof.Machine

/-! ### The scrub of one word (R192) -/

/-- A word in error stands at a place of the scrub's order. -/
def BadWord.standsAt (b : BadWord) (w : StoreKey × Nat × Nat) : Prop := b.key = w.1 ∧ b.pos = w.2.1 ∧ b.word = w.2.2

theorem atWord_iff {b : BadWord} {w : StoreKey × Nat × Nat} : atWord b w = true ↔ b.standsAt w := by
  simp [atWord, BadWord.standsAt, and_assoc]

/-- A word that has been read and is still listed is the one written back. -/
theorem BadWord.eq_of_listed {b c : BadWord} (listed : b.listed = some c) : c = b := by
  unfold BadWord.listed at listed
  split at listed
  · cases listed
  · exact (Option.some.inj listed).symm

section ScrubWord

variable {st : Store} {src : StoreImage} {w : StoreKey × Nat × Nat}

/-- A scrub that finds its word not damaged reads it. -/
theorem Store.scrubWord_of_readable (readable : ∀ b ∈ st.flips, b.standsAt w → decodeWord b.bits ≠ .damaged) :
    st.scrubWord src w = st.rereadWords fun b => atWord b w := by
  refine if_neg fun damaged => ?_
  simp only [List.any_eq_true, Bool.and_eq_true, beq_iff_eq] at damaged
  obtain ⟨b, listed, here, bad⟩ := damaged
  exact readable b listed (atWord_iff.mp here) bad

/-- A sound word is left, also where a wrong correction left it otherwise than it was written. -/
theorem Store.scrubWord_sound
    (sound : ∀ b ∈ st.flips, b.standsAt w → decodeWord b.bits = .sound ∧ (b.wrong ≠ 0 ∨ b.bits ≠ 0)) :
    st.scrubWord src w = st := by
  rw [Store.scrubWord_of_readable fun b listed here => by simp [(sound b listed here).1]]
  have kept : (st.flips.filterMap fun b => if atWord b w then b.reread.listed else some b) = st.flips.filterMap some := by
    refine List.filterMap_congr fun b listed => ?_
    split
    · rename_i here
      obtain ⟨decoded, off⟩ := sound b listed (atWord_iff.mp here)
      have left : b.reread = b := if_neg (by simp [decoded])
      rw [left]
      exact if_neg fun none => off.elim (· none.1) (· none.2)
    · rfl
  rw [Store.rereadWords, kept, List.filterMap_some]

/-- A word with one bit in error is written back as it was written. -/
theorem Store.scrubWord_one (one : ∀ b ∈ st.flips, b.standsAt w → errorCount b.bits = 1 ∧ b.wrong = 0) :
    st.scrubWord src w = { st with flips := st.flips.filter fun b => !atWord b w } := by
  have corrected (b : BadWord) (listed : b ∈ st.flips) (here : b.standsAt w) : decodeWord b.bits = .corrected :=
    decodeWord_one (one b listed here).1
  rw [Store.scrubWord_of_readable fun b listed here => by simp [corrected b listed here], Store.rereadWords,
    ← List.filterMap_eq_filter]
  refine congrArg (Store.mk st.image) (List.filterMap_congr fun b listed => ?_)
  by_cases here : atWord b w = true
  · obtain ⟨single, wrong⟩ := one b listed (atWord_iff.mp here)
    have reads : b.reads = 0 := by rw [BadWord.reads, if_pos (by omega), wrong]
    have mended : b.reread.listed = none := by
      rw [BadWord.reread, if_pos (corrected b listed (atWord_iff.mp here)), reads]
      rfl
    simp [here, mended, Option.guard]
  · simp [here, Option.guard]

/-- A corrected word is written back with its correction: the store reads as it did. -/
theorem Store.scrubWord_corrected (corrected : ∀ b ∈ st.flips, b.standsAt w → decodeWord b.bits = .corrected) :
    (st.scrubWord src w).image = st.image ∧ (st.scrubWord src w).misread = st.misread ∧
      ∀ b ∈ (st.scrubWord src w).flips, b.standsAt w → b.bits = 0 := by
  rw [Store.scrubWord_of_readable fun b listed here => by simp [corrected b listed here]]
  refine ⟨rfl, Store.misread_rereadWords st _, fun b after here => ?_⟩
  obtain ⟨c, listed, left⟩ := List.mem_filterMap.mp after
  split at left
  · rename_i read
    rw [BadWord.eq_of_listed left]
    exact BadWord.reread_bits (corrected c listed (atWord_iff.mp read))
  · rename_i unread
    cases left
    exact absurd (atWord_iff.mpr here) unread

/-- A damaged word, and that word alone, is written back from the working copy. -/
theorem Store.scrubWord_damaged (two : ∀ b ∈ st.flips, b.standsAt w → errorCount b.bits = 2)
    (some : ∃ b ∈ st.flips, b.standsAt w) :
    st.scrubWord src w =
      { image := st.image.withWords src w.1 fun i => i == w.2.2, flips := st.flips.filter fun b => !atWord b w } := by
  obtain ⟨b, listed, here⟩ := some
  refine if_pos (List.any_eq_true.mpr ⟨b, listed, ?_⟩)
  simp [atWord_iff.mpr here, decodeWord_two (two b listed here)]

end ScrubWord

/-! ### The scrub of a bath scan (R117, R192) -/

theorem State.scanBath_scrubAt (s : State) (level temp : Reading) : (s.scanBath level temp).scrubAt = s.scrubAt := by
  have quiet : (s.scanQuiet level temp).scrubAt = s.scrubAt := by
    unfold State.scanQuiet State.judgeQuiet
    split <;> rfl
  rw [State.scanBath_eq, State.judgeFeed_scrubAt]
  split
  · rw [State.reconcile_frame]
    exact quiet
  · exact quiet

/-- A bath scan with no write due does to the store what its scrub does. -/
theorem exec_bathScan_scrub {s : State} (run : s.phase = .running) (saved : s.unsaved = []) {w : StoreKey × Nat × Nat}
    (word : wordAt storeBlocks s.scrubAt = some w) (rl rt : Reading) :
    ∃ t : State, exec (.bathScan rl rt []) s = .next t ∧ t.scrubAt = (s.scrubAt + 1) % wordCount storeBlocks ∧
      t.store = s.store.scrubWord s.image w := by
  have before : s.beforeScan = s.scrub := congrArg State.scrub (State.writeDue_nil (s := s) .bathScan saved)
  have scrubbed : s.scrub.store = s.store.scrubWord s.image w := by simp [State.scrub, word]
  obtain ⟨-, kept, -⟩ := ((State.queuePath_refl s.scrub).scanBath rl rt).frame
  refine ⟨_, exec_bathScan run rl rt, ?_, ?_⟩
  · rw [State.endEvent_frame]
    refine (State.scanBath_scrubAt _ rl rt).trans ?_
    rw [before, State.scrub]
  · rw [State.endEvent_frame, before]
    exact kept.trans scrubbed

/-- The store has the working copy of every item of which no write is due. -/
theorem State.storeCurrent.sameItem {s : State} (current : s.storeCurrent) (run : s.phase = .running) (saved : s.unsaved = [])
    {k : StoreKey} (listed : k ∈ storeKeys) : sameItem s.store.image s.image k = true := by
  have last := ((State.storeCurrent_iff s).mp current run).last k listed
  rwa [State.lastWritten_writesOf, saved] at last

/-- What a bath scan's scrub does to the store, by what stands at its word (R192). -/
theorem State.bathScan_scrubs {s : State} {rl rt : Reading} {w : StoreKey × Nat × Nat} (run : s.phase = .running)
    (saved : s.unsaved = []) (word : wordAt storeBlocks s.scrubAt = some w) :
    let here := fun b : BadWord => b.key = w.1 ∧ b.pos = w.2.1 ∧ b.word = w.2.2
    let others := s.store.flips.filter fun b => !decide (here b)
    ∃ t : State, exec (.bathScan rl rt []) s = .next t ∧ t.scrubAt = (s.scrubAt + 1) % wordCount storeBlocks ∧
      ((∀ b ∈ s.store.flips, here b → decodeWord b.bits = .sound ∧ (b.wrong ≠ 0 ∨ b.bits ≠ 0)) → t.store = s.store) ∧
      ((∀ b ∈ s.store.flips, here b → errorCount b.bits = 1 ∧ b.wrong = 0) → t.store = { s.store with flips := others }) ∧
      ((∀ b ∈ s.store.flips, here b → decodeWord b.bits = .corrected) →
        t.store.image = s.store.image ∧ t.store.misread = s.store.misread ∧ ∀ b ∈ t.store.flips, here b → b.bits = 0) ∧
      ((∀ b ∈ s.store.flips, here b → errorCount b.bits = 2) → (∃ b ∈ s.store.flips, here b) →
        t.store = { image := s.store.image.withWords s.image w.1 (fun i => i == w.2.2), flips := others } ∧
        (∀ k ∈ storeKeys, k ≠ w.1 → sameItem t.store.image s.store.image k = true) ∧
        (s.storeCurrent → sameItem t.store.image s.image w.1 = true)) := by
  intro here others
  have left : (s.store.flips.filter fun b => !atWord b w) = others :=
    List.filter_congr fun b _ => by simp [here, atWord, ← and_assoc, Bool.decide_and, beq_eq_decide]
  obtain ⟨t, scan, next, store⟩ := exec_bathScan_scrub run saved word rl rt
  refine ⟨t, scan, next, fun sound => ?_, fun one => ?_, fun corrected => ?_, fun two some => ?_⟩
  · exact store.trans (Store.scrubWord_sound sound)
  · exact left ▸ store.trans (Store.scrubWord_one one)
  · exact store ▸ Store.scrubWord_corrected corrected
  · have damaged := store.trans (Store.scrubWord_damaged (src := s.image) two some)
    refine ⟨left ▸ damaged, fun k _ other => ?_, fun current => ?_⟩
    · rw [damaged]
      exact StoreImage.weave_other _ _ other
    · have same := current.sameItem run saved (mem_storeKeys_of_wordAt word)
      rw [damaged]
      exact sameItem_trans (sameItem_withWords (sameItem_symm same) _ _) same

end Sys2Proof.Machine

namespace Sys2Proof.Machine

/-! ### A collapse of the supply on any part (R200) -/

theorem State.settle_inputs (s : State) (p : Port) : (s.settle p).inputs = s.inputs := by
  unfold State.settle
  split
  · exact (State.serve_links s _ p _).1
  · rfl

theorem State.flushPart_inputs (s : State) : s.flushPart.inputs = s.inputs := by
  unfold State.flushPart
  split
  · change ((((s.settle .craneA).settle .craneB).settle .feed).settle .office).inputs = s.inputs
    simp only [State.settle_inputs]
  · rfl

theorem State.collapse_flush (s : State) (tears : List StepTear) : (s.collapse tears).flush = none := by
  unfold State.collapse
  split
  · assumption
  · rfl

/-- A stopped part takes no flush (R193). -/
theorem exec_supplyCollapse_stopped {s : State} (stopped : s.phase = .flushed) (tears : List StepTear) :
    exec (.supplyCollapse tears) s = .next (s.collapse tears) :=
  congrArg (fun t : State => Host.Outcome.next (t.collapse tears)) (if_neg (by simp [stopped]))

/-- A collapse stops every part with its supply lost, and leaves no flush work (R200). -/
theorem State.collapse_stops (s : State) (tears : List StepTear) :
    ∃ t : State, exec (.supplyCollapse tears) s = .next t ∧ t.phase = .flushed ∧ t.flush = none ∧
      t.inputs = { s.inputs with supplyLost := true } := by
  refine ⟨_, rfl, ?_, State.collapse_flush _ tears, ?_⟩
  · rw [State.collapse_frame]
    exact s.flushPart_phase
  · rw [State.collapse_frame]
    exact congrArg (fun i : Inputs => { i with supplyLost := true }) s.flushPart_inputs

theorem State.collapse_without_work {s : State} (idle : s.flush = none) (tears : List StepTear) :
    s.collapse tears = { s with inputs := { s.inputs with supplyLost := true } } := by
  unfold State.collapse
  rw [idle]

/-- A collapse of a running part with no request PENDING flushes it first (R193, R200). -/
theorem State.collapse_of_quiet {s : State} (run : s.phase = .running)
    (quiet : ∀ p : Port, (s.engines.get p).slot.isPending = false) (tears : List StepTear) :
    ∃ t : State, exec (.supplyCollapse tears) s = .next t ∧
      t = { s with
        phase := .flushed, inputs := { s.inputs with supplyLost := true }, engines := s.engines.dropTransfers
        lines := Lines.down, store := t.store, unsaved := [], flush := none } := by
  have flushed : s.flushPart = s.flushed (s.flushWork s.store (s.unsaved.map DueStep.writes)) := by
    rw [State.flushPart_of_running run, State.settleAll_of_quiet quiet]
  refine ⟨s.flushPart.collapse tears, rfl, ?_⟩
  rw [flushed]
  rfl

/-! ### The writes of a step as far as they had come (R190, R200) -/

/-- The image that an item holds after some writes: that of the last write of it, or the one before them. -/
def imageAfter (puts : List (StoreImage × StoreKey)) (found : StoreImage) (k : StoreKey) : StoreImage :=
  ((puts.filter fun p => p.2 == k).getLast?.map Prod.fst).getD found

theorem imageAfter_snoc_same (puts : List (StoreImage × StoreKey)) (found img : StoreImage) (k : StoreKey) :
    imageAfter (puts ++ [(img, k)]) found k = img := by
  simp [imageAfter]

theorem imageAfter_snoc_other (puts : List (StoreImage × StoreKey)) (found : StoreImage) {p : StoreImage × StoreKey}
    {k : StoreKey} (other : p.2 ≠ k) : imageAfter (puts ++ [p]) found k = imageAfter puts found k := by
  simp [imageAfter, other]

/-- Single writes made one after another. -/
def Store.putAll (st : Store) (puts : List (StoreImage × StoreKey)) : Store := puts.foldl (fun st p => st.write p.1 p.2) st

theorem Store.putAll_sized (st : Store) (puts : List (StoreImage × StoreKey)) : (st.putAll puts).image.sized st.image := by
  induction puts generalizing st with
  | nil => exact ⟨rfl, rfl⟩
  | cons p ps ih => exact (ih (st.write p.1 p.2)).trans (StoreImage.putItem_sized st.image p.1 p.2)

/-- Each item holds the value of the last write of it. -/
theorem sameItem_putAll_imageAfter {st : Store} {puts : List (StoreImage × StoreKey)}
    (sized : ∀ p ∈ puts, p.1.sized st.image) (k : StoreKey) :
    sameItem (st.putAll puts).image (imageAfter puts st.image k) k = true := by
  induction puts using List.reverseRecOn with
  | nil => exact sameItem_refl _ k
  | append_singleton ps p ih =>
    obtain ⟨img, j⟩ := p
    have step : (st.putAll (ps ++ [(img, j)])).image = (st.putAll ps).image.putItem img j := by
      rw [Store.putAll, List.foldl_append]
      rfl
    have before := ih fun q listed => sized q (List.mem_append_left _ listed)
    rw [step]
    by_cases own : j = k
    · subst own
      rw [imageAfter_snoc_same]
      exact sameItem_putItem ((st.putAll_sized ps).trans (sized (img, j) (by simp)).symm) j
    · rw [imageAfter_snoc_other ps _ own]
      exact sameItem_trans (sameItem_putItem_other _ img (Ne.symm own)) before

/-! ### An item torn (R200, log 12) -/

/-- A change that leaves an item alters no word of it. -/
theorem altersWord_of_same {old new : StoreImage} {k : StoreKey} (same : sameItem new old k = true) (word : Nat) :
    altersWord old new k word = false := by
  by_cases lost : k = .lost
  · subst lost
    simp only [sameItem, Bool.and_eq_true, beq_iff_eq] at same
    simp [altersWord, same.1]
  · simp [altersWord, lost, sameItem_withWords same, sameItem_withWords (sameItem_symm same)]

/-- A list that nothing leaves holds its items, those of the joining ones that are done, and the next one as it is torn. -/
theorem tornList_joined {α : Type} (key : StoreKey) (old : List (Marked α)) (joined : List α) (x : ItemTear) :
    tornList key old [] joined x =
      old ++ (joined.take x.edits).map (fun v => (v, [])) ++
        (joined[x.edits]?).toList.flatMap fun v => tornEntry key (wordsOf key) none (some (v, [])) x.words := by
  have stay : (old.zipIdx.flatMap fun p => [p.1]) = old := by
    rw [← List.map_eq_flatMap, List.zipIdx_map_fst]
  unfold tornList
  cases joined[x.edits]? <;> simp [stay]

theorem Store.marked_items {α : Type} (st : Store) (key : StoreKey) (items : List α) :
    (st.marked key items).map Prod.fst = items := by
  simp [Store.marked, Function.comp_def]

/-- No record leaves where records join at the tail. -/
theorem headTaken_append (old joined : List Record) : headTaken old (old ++ joined) = 0 := by
  cases old with
  | nil => rfl
  | cons r rs => exact if_pos (by simp)

theorem foulRemoved_self (items : List FoulItem) : foulRemoved items items = [] := by
  refine List.filterMap_eq_nil_iff.mpr fun p listed => ?_
  simp [List.fst_mem_of_mem_zipIdx listed]

theorem wordsOf_records : wordsOf .records = 115 := by decide

/-- The records of a store whose list was to take some more at its tail, torn. -/
theorem Store.tear_records {st : Store} {src : StoreImage} {joined : List Record}
    (joins : src.records.items = st.image.records.items ++ joined) (x : ItemTear) :
    (st.tear src .records x).image.records.items =
      st.image.records.items ++ joined.take x.edits ++
        ((joined[x.edits]?).toList.flatMap fun v => tornEntry .records 115 none (some (v, [])) x.words).map Prod.fst := by
  change (tornList .records (st.marked .records st.image.records.items)
    (List.range (headTaken st.image.records.items src.records.items)) _ x).map Prod.fst = _
  rw [joins, headTaken_append, List.range_zero, tornList_joined, List.map_append, List.map_append, Store.marked_items]
  simp [wordsOf_records, Function.comp_def]

/-- A tear of one item leaves every other. -/
theorem Store.tear_other (st : Store) (src : StoreImage) {k j : StoreKey} (x : ItemTear) (other : j ≠ k) :
    sameItem (st.tear src k x).image st.image j = true := by
  cases k with
  | records => cases j <;> simp_all [Store.tear, Store.setRecords, sameItem]
  | foul => cases j <;> simp_all [Store.tear, Store.setFoul, sameItem]
  | _ => exact (st.tearItem_other src x.words other).1

/-- A tear of an item that the write would have left leaves it. -/
theorem Store.tear_same {st : Store} {src : StoreImage} {k : StoreKey} (x : ItemTear) (same : sameItem src st.image k = true) :
    sameItem (st.tear src k x).image st.image k = true := by
  have kept : sameItem (st.tearItem src k x.words).image st.image k = true :=
    sameItem_weave fun i => by
      rw [altersWord_of_same same, if_neg (by simp)]
      exact sameItem_refl _ k
  cases k with
  | records =>
    have items : src.records.items = st.image.records.items ++ [] := by simpa [sameItem] using same
    simp only [sameItem, Store.tear_records items x, beq_iff_eq]
    simp
  | foul =>
    have items : src.foul = st.image.foul := by simpa [sameItem] using same
    have torn : (st.tear src .foul x).image.foul = st.image.foul := by
      change (tornList .foul (st.marked .foul st.image.foul) (foulRemoved st.image.foul src.foul) _ x).map Prod.fst = _
      rw [items, foulRemoved_self, List.length_nil, Nat.sub_zero, List.drop_length, tornList_joined]
      simp [Store.marked_items]
    simp [sameItem, torn]
  | _ => exact kept

/-! ### A job slot torn (R200, log 12) -/

/-- The first word of a job slot holds its state, its number and its default class: a change of none of these leaves it (R135). -/
theorem altersWord_job_first {old new : StoreImage} {i : Nat} {a b : JobSlot} (found : old.jobs[i]? = some a)
    (changed : new.jobs[i]? = some b) (state : a.state = b.state) (number : a.number = b.number)
    (class_ : a.defaultClass = b.defaultClass) : altersWord old new (.job i) 0 = false := by
  have mixed {x y : JobSlot} (state : x.state = y.state) (number : x.number = y.number)
      (class_ : x.defaultClass = y.defaultClass) : (JobSlot.ofWords fun j => if j == 0 then y else x) = x := by
    rw [← JobSlot.ofWords_const x]
    simp [JobSlot.ofWords, state, number, class_]
  have forth : sameItem (old.withWords new (.job i) fun j => j == 0) old (.job i) = true := by
    have word : (fun j => (((if j == 0 then new else old : StoreImage).jobs[i]?).getD a)) = fun j => if j == 0 then b else a :=
      funext fun j => by split <;> simp [found, changed]
    simp only [sameItem, StoreImage.withWords, StoreImage.weave, found, word, mixed state number class_,
      getElem?_set_of_some _ found, beq_self_eq_true]
  have back : sameItem (new.withWords old (.job i) fun j => j == 0) new (.job i) = true := by
    have word : (fun j => (((if j == 0 then old else new : StoreImage).jobs[i]?).getD b)) = fun j => if j == 0 then a else b :=
      funext fun j => by split <;> simp [found, changed]
    simp only [sameItem, StoreImage.withWords, StoreImage.weave, changed, word, mixed state.symm number.symm class_.symm,
      getElem?_set_of_some _ changed, beq_self_eq_true]
  simp [altersWord, forth, back]

/-- A job slot torn whose change alters neither its state nor its number nor its default class keeps these. -/
theorem Store.tear_job {st : Store} {src : StoreImage} {i : Nat} {a b : JobSlot} (x : ItemTear)
    (found : st.image.jobs[i]? = some a) (changed : src.jobs[i]? = some b) (state : a.state = b.state)
    (number : a.number = b.number) (class_ : a.defaultClass = b.defaultClass) :
    ∃ c : JobSlot, (st.tear src (.job i) x).image.jobs[i]? = some c ∧ c.state = a.state ∧ c.number = a.number := by
  have first := altersWord_job_first found changed state number class_
  have torn : ∃ w : Nat → StoreImage, (st.tear src (.job i) x).image = st.image.weave (.job i) w ∧ w 0 = st.image :=
    ⟨_, rfl, if_neg (by simp [first])⟩
  obtain ⟨w, image, word⟩ := torn
  refine ⟨_, by rw [image]; simp only [StoreImage.weave, found]; exact getElem?_set_of_some _ found, ?_, ?_⟩ <;>
    simp [JobSlot.ofWords, word, found]

end Sys2Proof.Machine

namespace Sys2Proof.Machine

/-! ### A flush with one step to write, cut off (R193, R200) -/

section Torn

variable {s : State} {w : FlushWork} {ws : List StepWrites} {n : Nat} {torn : Option ItemTear}

/-- The collapse of a flush with one step to write, before that step was whole, leaves the step as far as it had come, and the
live-entry list unwritten (R193, R200). -/
theorem FlushWork.torn_of_one (step : w.steps = [ws]) (early : n < (putsOf ws).length) :
    w.torn [{ written := n, torn := torn }] = w.store.makePart ws { written := n, torn := torn } := by
  have partly : wholeStep { written := n, torn := torn } ws = false := by simpa [wholeStep] using early
  simp [FlushWork.torn, step, partly]

/-- A step as far as it had come: its first writes as made, and the next one torn. -/
theorem Store.makePart_eq (st : Store) {p : StoreImage × StoreKey} (next : (putsOf ws)[n]? = some p) :
    st.makePart ws { written := n, torn := torn } =
      match torn with
      | none => st.putAll ((putsOf ws).take n)
      | some x => (st.putAll ((putsOf ws).take n)).tear p.1 p.2 x := by
  unfold Store.makePart
  rw [next]
  cases torn <;> rfl

theorem putsOf_sized {img : StoreImage}
    (sized : ∀ x ∈ ws, x.image.classes.length = img.classes.length ∧ x.image.jobs.length = img.jobs.length)
    {p : StoreImage × StoreKey} (listed : p ∈ putsOf ws) : p.1.sized img := by
  obtain ⟨x, mem, put⟩ := List.mem_flatMap.mp listed
  obtain ⟨k, -, rfl⟩ := List.mem_map.mp put
  exact ⟨(sized x mem).1, (sized x mem).2⟩

/-- What the collapse of a flush with one step to write leaves of each item, by what was being written (R200). -/
theorem State.collapse_tears (stopped : s.phase = .flushed) (work : s.flush = some w) (step : w.steps = [ws])
    (sized : ∀ x ∈ ws, x.image.classes.length = w.store.image.classes.length ∧
      x.image.jobs.length = w.store.image.jobs.length) (early : n < (putsOf ws).length) :
    let reached := imageAfter ((putsOf ws).take n) w.store.image
    ∃ t : State, exec (.supplyCollapse [{ written := n, torn := torn }]) s = .next t ∧
      t = { s with inputs := { s.inputs with supplyLost := true }, flush := none, store := t.store } ∧
      (∀ k ∈ storeKeys, (torn = none ∨ ∀ p ∈ (putsOf ws)[n]?, p.2 = k → sameItem p.1 (reached k) k = true) →
        sameItem t.store.image (reached k) k = true) ∧
      (∀ (i : Nat) (img : StoreImage) (a b : JobSlot), (putsOf ws)[n]? = some (img, .job i) →
        (reached (.job i)).jobs[i]? = some a → img.jobs[i]? = some b → a.state = b.state → a.number = b.number →
        a.defaultClass = b.defaultClass →
        ∃ c : JobSlot, t.store.image.jobs[i]? = some c ∧ c.state = a.state ∧ c.number = a.number) ∧
      ∀ (img : StoreImage) (joined : List Record) (e : Nat), (putsOf ws)[n]? = some (img, .records) →
        img.records.items = (reached .records).records.items ++ joined →
        (torn = some { edits := e, words := (List.range 115).map fun i => { word := i, fate := .kept } } →
          t.store.image.records.items = (reached .records).records.items ++ joined.take e) ∧
        (torn = some { edits := e, words := [] } →
          t.store.image.records.items = (reached .records).records.items ++ joined.take (e + 1)) := by
  intro reached
  obtain ⟨p, next⟩ : ∃ p, (putsOf ws)[n]? = some p := ⟨_, List.getElem?_eq_getElem early⟩
  have store : w.torn [{ written := n, torn := torn }] = _ :=
    (FlushWork.torn_of_one step early).trans (Store.makePart_eq w.store next)
  have written (k : StoreKey) : sameItem (w.store.putAll ((putsOf ws).take n)).image (reached k) k = true :=
    sameItem_putAll_imageAfter (fun q listed => putsOf_sized sized (List.mem_of_mem_take listed)) k
  have job (i : Nat) : (w.store.putAll ((putsOf ws).take n)).image.jobs[i]? = (reached (.job i)).jobs[i]? := by
    simpa [sameItem] using written (.job i)
  have records : (w.store.putAll ((putsOf ws).take n)).image.records.items = (reached .records).records.items := by
    simpa [sameItem] using written .records
  refine ⟨s.collapse [{ written := n, torn := torn }], exec_supplyCollapse_stopped stopped _, ?_, ?_⟩
  · simp only [State.collapse, work]
  have left : (s.collapse [{ written := n, torn := torn }]).store = w.torn [{ written := n, torn := torn }] := by
    simp only [State.collapse, work]
  rw [left, store]
  refine ⟨fun k _ spared => ?_, fun i img a b cut found changed state number class_ => ?_,
    fun img joined e cut joins => ⟨?_, ?_⟩⟩
  · cases torn with
    | none => exact written k
    | some x =>
      by_cases own : p.2 = k
      · have same := spared.resolve_left (by simp) p next own
        subst own
        exact sameItem_trans (Store.tear_same x (sameItem_trans same (sameItem_symm (written p.2)))) (written p.2)
      · exact sameItem_trans (Store.tear_other _ _ x (Ne.symm own)) (written k)
  · obtain rfl := Option.some.inj (next.symm.trans cut)
    cases torn with
    | none => exact ⟨a, (job i).trans found, rfl, rfl⟩
    | some x => exact Store.tear_job x ((job i).trans found) changed state number class_
  · rintro rfl
    obtain rfl := Option.some.inj (next.symm.trans cut)
    refine (Store.tear_records (joins.trans (congrArg (· ++ joined) records.symm)) _).trans ?_
    rw [records]
    simp [tornEntry_kept]
  · rintro rfl
    obtain rfl := Option.some.inj (next.symm.trans cut)
    refine (Store.tear_records (joins.trans (congrArg (· ++ joined) records.symm)) _).trans ?_
    rw [records, List.append_assoc, List.take_add_one]
    cases joined[e]? <;> simp

end Torn

/-- Settles O60: a restart over a corrected and over a damaged word, the scrub, a collapse on any part, and one that cuts off a
step. -/
theorem errors_and_a_collapse_reach_the_items_they_strike :
    Obligations.Errors_and_a_collapse_reach_the_items_they_strike :=
  ⟨fun _ _ stopped sound one reset => State.powerOn_corrected stopped sound one reset,
    fun _ _ stopped sound fits named two reset high => State.powerOn_damaged stopped sound fits named two reset high,
    fun _ _ _ _ run saved _ _ word => State.bathScan_scrubs run saved word,
    fun s tears => ⟨State.collapse_stops s tears,
      fun stopped idle =>
        (exec_supplyCollapse_stopped stopped tears).trans (congrArg Host.Outcome.next (State.collapse_without_work idle tears)),
      fun run quiet => State.collapse_of_quiet run quiet tears⟩,
    fun _ _ _ _ _ stopped work step sized early => State.collapse_tears stopped work step sized early⟩

end Sys2Proof.Machine

namespace Sys2Proof.Machine

/-! ### What a stopped part does not take (R193, step 2) -/

theorem State.answers_of_flushed {s : State} (stopped : s.phase = .flushed) (addr : LinkAddress) :
    s.answers addr = false := by simp [State.answers, stopped]

/-- A stopped part's port engine takes no write, to whichever address and with whatever check byte (R193). -/
theorem State.writeTransfer_of_flushed {s : State} (stopped : s.phase = .flushed) (p : Port) (addr : LinkAddress)
    (code : Byte) (body : List Byte) (check : Byte) : s.writeTransfer p addr code body check = s :=
  if_neg (by simp [State.answers_of_flushed stopped])

/-- Settles O15: the engines answer no address, and the events are taken only while the part runs. -/
theorem a_stopped_part_takes_nothing : Obligations.A_stopped_part_takes_nothing := by
  intro s stopped
  have unanswered (addr : LinkAddress) (t : State) :
      Host.Outcome.next (if s.answers addr then t else s) = (.next s : Outcome) :=
    congrArg Host.Outcome.next (if_neg (by simp [State.answers_of_flushed stopped]))
  have untaken (act : State → State) : Host.Outcome.next (s.whileRunning act) = (.next s : Outcome) :=
    congrArg Host.Outcome.next (State.whileRunning_of_flushed stopped act)
  exact ⟨fun p r body => State.writeTransfer_of_flushed stopped p _ r.code body _,
    fun p a code body tail => congrArg Host.Outcome.next (State.writeTransfer_of_flushed stopped p a code body tail.check),
    fun _ a _ => unanswered a _, fun _ a _ _ => unanswered a _,
    fun _ _ => congrArg Host.Outcome.next (if_neg (by simp [stopped])),
    fun _ _ _ => untaken _, fun _ _ _ => untaken _,
    fun _ => ⟨untaken _, untaken _, untaken _, untaken _, untaken _⟩, fun _ => untaken _⟩

end Sys2Proof.Machine

namespace Sys2Proof.Machine

/-! ### The first restart of a new part (R189, R198, log 18) -/

theorem State.noticeDefaulted_of_calibrated {s : State} {c : Crane} (calibrated : (s.hooks.get c).cal.calibrated = true) :
    s.noticeDefaulted c = s := if_pos calibrated

/-- An INVALID book asks for no zinc: a feed-demand line that stands low stays low (R134). -/
theorem State.judgeFeed_of_invalid {s : State} (invalid : s.book.state = .invalid) (low : s.lines.feed = false) :
    s.judgeFeed = s := by
  have level : s.feedLevel = false := by simp [State.feedLevel, invalid]
  rw [State.judgeFeed, level, Bool.false_and, if_neg Bool.false_ne_true, ← low]

/-- With no hook DEFAULTED and no item damaged, an INVALID book is all that a restart tells of (R186). -/
theorem State.restartNotices_of_invalid {s : State} (calibrated : ∀ c, (s.hooks.get c).cal.calibrated = true)
    (invalid : s.book.state = .invalid) (low : s.lines.feed = false) :
    s.restartNotices 0 = (s.notify .feed .bookInvalid).notify .office .bookInvalid := by
  have undamaged (t : State) : t.noticeDamage 0 = t := if_pos rfl
  rw [State.restartNotices, State.noticeDefaulted_of_calibrated (calibrated .craneA),
    State.noticeDefaulted_of_calibrated (calibrated .craneB), undamaged, State.noticeInvalid, if_pos invalid]
  exact State.judgeFeed_of_invalid invalid low

/-- A new part's store gains its first RESTART record (R199). -/
theorem StoreImage.newPart_ended : StoreImage.newPart.ended = State.reset.store.image := rfl

/-- A restart of a new part's store, its inputs inactive and no command waiting, leaves the reset state: what restart does not
set it reads from the store, the inputs or the queue (R198). -/
theorem State.restartWhole_newPart {s : State} (store : s.store = { image := StoreImage.newPart, flips := [] })
    (clear : s.inputs = Inputs.clear) (idle : s.pending = []) : s.restartWhole = State.reset := by
  have revived : s.revived s.store.image.ended [] =
      { State.reset with
        notices := ⟨NoticeQueue.empty, NoticeQueue.empty, NoticeQueue.empty, NoticeQueue.empty⟩, lines := Lines.down } := by
    rw [store, StoreImage.newPart_ended, State.revived, clear, idle]
    rfl
  rw [State.restartWhole_of_sound (by rw [store]), revived, State.released_eq,
    State.restartNotices_of_invalid (fun c => by cases c <;> rfl) rfl rfl]
  rfl

/-- Settles O2: power-on restarts the part, and with the supply up its inputs are all inactive. -/
theorem first_restart_of_a_new_part_is_reset : Obligations.First_restart_of_a_new_part_is_reset := by
  intro s stopped store reset high idle
  have clear : s.powered.inputs = Inputs.clear := by
    simp [State.powered, State.relink, Inputs.clear, reset, high]
  calc exec (.powerOn [] none) s
    _ = .next s.powered.restartWhole := exec_powerOn_ready stopped reset none
    _ = .next State.reset := congrArg Host.Outcome.next (State.restartWhole_newPart store clear idle)

end Sys2Proof.Machine

namespace Sys2Proof.Machine

/-- Settles O1: the two cases of a step. -/
theorem step_takes_the_front_command : Obligations.Step_takes_the_front_command := by
  refine ⟨fun s c rest front => ?_, fun s idle => ?_⟩
  · rw [step, front]
  · rw [step, idle]

end Sys2Proof.Machine

namespace Sys2Proof.Machine

/-! ### The check byte tells changed bytes apart (R203) -/

/-- A shift undone: the divisor is odd, so the lowest bit of a shifted check tells whether it was combined. -/
def crcUnshift (c : Byte) : Byte := if c.getLsbD 0 then ((c ^^^ 0x2F) >>> 1) ||| 0x80 else c >>> 1

theorem crcUnshift_crcShift (c : Byte) : crcUnshift (crcShift c) = c := by
  revert c
  decide

theorem crcShifts_injective (n : Nat) : Function.Injective (crcShifts n) := by
  induction n with
  | zero => exact Function.injective_id
  | succ n ih => exact ih.comp (Function.LeftInverse.injective crcUnshift_crcShift)

theorem crcByte_injective_check (b : Byte) : Function.Injective fun c => crcByte c b :=
  fun _ _ same => (BitVec.xor_left_inj _).mp (crcShifts_injective 8 same)

theorem crcByte_injective_byte (c : Byte) : Function.Injective (crcByte c) :=
  fun _ _ same => (BitVec.xor_right_inj _).mp (crcShifts_injective 8 same)

/-- Bytes that follow keep two checks apart. -/
theorem foldl_crcByte_injective (bytes : List Byte) : Function.Injective fun c => bytes.foldl crcByte c := by
  induction bytes with
  | nil => exact Function.injective_id
  | cons b rest ih => exact ih.comp (crcByte_injective_check b)

/-- Byte strings that differ in one byte have different checks. -/
theorem crc_ne_of_byte {a b : Byte} (differ : a ≠ b) (before after : List Byte) :
    crc (before ++ a :: after) ≠ crc (before ++ b :: after) := by
  simp only [crc, List.foldl_append, List.foldl_cons]
  exact fun same => differ (crcByte_injective_byte _ (foldl_crcByte_injective after same))

theorem checkByte_ne_of_code {code code' : Byte} (differ : code' ≠ code) (body : List Byte) :
    checkByte code body ≠ checkByte code' body := crc_ne_of_byte differ.symm [] (le 2 body.length ++ body)

theorem checkByte_ne_of_body (code : Byte) {body : List Byte} {i : Nat} {b : Byte} (inside : i < body.length)
    (differ : body[i] ≠ b) : checkByte code body ≠ checkByte code (body.set i b) := by
  have bytes (x : Byte) : framed code (body.set i x) =
      (code :: (le 2 body.length ++ body.take i)) ++ x :: body.drop (i + 1) := by
    rw [framed, List.length_set, List.set_eq_take_append_cons_drop, if_pos inside, List.cons_append, List.append_assoc]
  have whole : framed code body = framed code (body.set i body[i]) := by rw [List.set_getElem_self]
  rw [checkByte, checkByte, whole, bytes, bytes]
  exact crc_ne_of_byte differ _ _

end Sys2Proof.Machine

namespace Sys2Proof.Machine

/-! ### What the engine makes of a write that it takes at once (R202 to R204) -/

section Judged

variable {s : State} {p : Port} {code check : Byte} {body extra : List Byte}

/-- A write's check byte is judged with what the receive buffer holds; the bytes sent after it are not looked at. -/
theorem exec_unknownRequest (takes : s.takes p = true) :
    exec (.unknownRequest p 0x4B code body { check := check, extra := extra }) s =
      .next ((s.judge p (ReceiveBuffer.taken code body) check).endTransfer p) := by
  have answers : s.answers 0x4B = true := State.answers_of_takes takes
  change Host.Outcome.next (s.writeTransfer p 0x4B code body check) = _
  rw [State.writeTransfer, if_pos answers, State.settle_of_takes takes]

theorem exec_unknownRequest_badCheck (takes : s.takes p = true) (bad : check ≠ checkByte code body) :
    exec (.unknownRequest p 0x4B code body { check := check, extra := extra }) s = .next (s.replied p .badCheck []) := by
  rw [exec_unknownRequest takes, State.judge, ReceiveBuffer.taken_check, if_pos bad, State.replied]

theorem exec_unknownRequest_goodCheck (takes : s.takes p = true) (good : check = checkByte code body) :
    exec (.unknownRequest p 0x4B code body { check := check, extra := extra }) s =
      .next ((s.judgeGood p (ReceiveBuffer.taken code body)).endTransfer p) := by
  rw [exec_unknownRequest takes, State.judge, ReceiveBuffer.taken_check, if_neg (not_not.mpr good)]

end Judged

/-- Settles O18: a check byte over bytes of which one was changed is not the one sent. -/
theorem a_corrupted_byte_is_answered_BAD_CHECK : Obligations.A_corrupted_byte_is_answered_BAD_CHECK := by
  intro p code body extra s takes
  exact ⟨fun code' differ => exec_unknownRequest_badCheck takes (checkByte_ne_of_code differ body),
    fun i b inside differ => exec_unknownRequest_badCheck takes (checkByte_ne_of_body code inside differ)⟩

/-- The judgement of a write with a good check whose code names a request: the port's role, then the length (R204). -/
theorem State.judgeGood_request (s : State) (p : Port) (r : Request) (body : List Byte) :
    s.judgeGood p (ReceiveBuffer.taken r.code body) =
      if r.roles.permits p = false then s.setSlot p (.ready .notPermitted [])
      else if r.lengthOk body.length = false then s.setSlot p (.ready .badLength [])
      else s.serve p r (ReceiveBuffer.taken r.code body).body := by
  simp [State.judgeGood, Request.ofCode_code]

/-- Settles O19: the tests of R204 in their order; no request of the table allows a body beyond the receive buffer. -/
theorem the_engine_refuses_in_order : Obligations.The_engine_refuses_in_order := by
  intro p code body extra s takes
  have judged := exec_unknownRequest_goodCheck (extra := extra) takes (rfl : checkByte code body = checkByte code body)
  refine ⟨fun unnamed => ?_, ?_⟩
  · rw [judged]
    simp [State.judgeGood, unnamed, State.replied]
  · rintro r rfl
    refine ⟨fun barred => ?_, fun permitted long => ?_, fun _ _ => rfl⟩
    · rw [judged, State.judgeGood_request, if_pos barred, State.replied]
    · have wrong : r.lengthOk body.length = false := by
        refine long.elim id fun large => Bool.eq_false_iff.mpr fun ok => ?_
        exact absurd (Request.room_of_lengthOk ok) (Nat.not_le.mpr large)
      rw [judged, State.judgeGood_request, if_neg (by simp [permitted]), if_pos wrong, State.replied]

end Sys2Proof.Machine

namespace Sys2Proof.Machine

/-! ### Reads, short writes and timeouts (R206 to R208) -/

/-- A running part takes a transfer at once where the slot is READY. -/
theorem State.takes_of_answered {s : State} {p : Port} {st : Status} {ans : List Byte} (run : s.phase = .running)
    (ready : s.answered p st ans) : s.takes p = true := by
  simp [State.takes, run, show (s.engines.get p).slot = .ready st ans from ready, AnswerSlot.isPending]

/-- A read of a slot that is not PENDING sends the slot's frame, empties the slot and touches no other engine. -/
theorem State.readFrom_of_takes {s : State} {p : Port} (takes : s.takes p = true) (n : Nat) :
    ((s.readFrom p n).engines.get p).sent = clockedBytes (s.engines.get p).slot.frame n ∧
      ((s.readFrom p n).engines.get p).slot = .empty ∧
      s.readFrom p n = { s with engines := s.engines.set p ((s.readFrom p n).engines.get p) } := by
  rw [State.readFrom, State.settle_of_takes takes]
  simp [State.sendAnswer, State.endTransfer]

theorem exec_readTransfer {s : State} {p : Port} (takes : s.takes p = true) (n : Nat) :
    exec (.readTransfer p 0x4B n) s = .next (s.readFrom p n) :=
  congrArg Host.Outcome.next (if_pos (State.answers_of_takes takes))

@[simp] theorem length_frameBytes (head : Byte) (body : List Byte) : (frameBytes head body).length = body.length + 4 := by
  simp only [frameBytes, framed, List.length_append, List.length_cons, List.length_nil, length_le]
  omega

/-- Settles O20: the first read moves the answer out of the slot, and the second finds it EMPTY. -/
theorem a_read_sends_the_answer_once : Obligations.A_read_sends_the_answer_once := by
  intro p st ans n s run ready
  have takes := State.takes_of_answered run ready
  obtain ⟨sent, emptied, frame⟩ := State.readFrom_of_takes takes n
  have run' : (s.readFrom p n).phase = .running := by rw [frame]; exact run
  have takes' : (s.readFrom p n).takes p = true := by simp [State.takes, run', emptied, AnswerSlot.isPending]
  obtain ⟨sent', emptied', frame'⟩ := State.readFrom_of_takes takes' n
  have slot : (s.engines.get p).slot = .ready st ans := ready
  refine ⟨_, _, exec_readTransfer takes n, ?_, emptied, frame, exec_readTransfer takes' n, ?_, emptied', frame'⟩
  · rw [sent, slot, AnswerSlot.frame, clockedBytes, length_frameBytes]
  · rw [sent', emptied]
    exact congrArg (fun k => (frameBytes 0x12 []).take n ++ List.replicate (n - k) 0xFF) (length_frameBytes 0x12 [])

/-- Settles O21: a dropped write only ends its transfer, and a read cut off has emptied its slot. -/
theorem dropped_transfers_keep_the_slot : Obligations.Dropped_transfers_keep_the_slot := by
  intro p bytes e s takes
  have running := State.running_of_takes takes
  have dropped : s.dropWrite p = s.endTransfer p := by rw [State.dropWrite, State.settle_of_takes takes]
  refine ⟨?_, ?_, congrArg Host.Outcome.next (if_pos running), PerPort.get_set_same _ _ _, fun n => ?_⟩
  · exact congrArg Host.Outcome.next ((if_pos (State.answers_of_takes takes)).trans dropped)
  · exact congrArg Host.Outcome.next ((if_pos running).trans dropped)
  · obtain ⟨-, emptied, frame⟩ := State.readFrom_of_takes takes n
    exact ⟨s.readFrom p n, congrArg Host.Outcome.next (if_pos running), emptied, frame⟩

end Sys2Proof.Machine

namespace Sys2Proof.Machine

/-! ### Lengths of answers (R210) -/

/-- An optional field takes its presence byte and the room of its value, present or not. -/
@[simp] theorem length_optional {α : Type} {n : Nat} {code : α → List Byte} (room : ∀ v, (code v).length = n)
    (x : Option α) : (optional n code x).length = n + 1 := by
  cases x with
  | none => simp [optional, Nat.add_comm]
  | some v => simp [optional, room, Nat.add_comm]

@[simp] theorem length_lapseBytes (entry lapse mark : Option Nat) : (lapseBytes entry lapse mark).length = 7 := by
  unfold lapseBytes
  split <;> simp

@[simp] theorem Sample.length_bytes (x : Sample) : x.bytes.length = 9 := by simp [Sample.bytes]
@[simp] theorem Hook.length_bytes (h : Hook) : h.bytes.length = 34 := by simp [Hook.bytes]
@[simp] theorem Watch.length_bytes (w : Watch) : w.bytes.length = 12 := by simp [Watch.bytes]
@[simp] theorem ClassEntry.length_bytes (k : ClassEntry) : k.bytes.length = 22 := by simp [ClassEntry.bytes]
@[simp] theorem Book.length_bytes (b : Book) : b.bytes.length = 46 := by simp [Book.bytes]
@[simp] theorem Reconcile.length_bytes (r : Reconcile) : r.bytes.length = 24 := by simp [Reconcile.bytes]
@[simp] theorem Channel.length_bytes (ch : Channel) : ch.bytes.length = 5 := by simp [Channel.bytes]
@[simp] theorem State.length_jobBytes (s : State) (i : Nat) : (s.jobBytes i).length = 45 := by
  simp [State.jobBytes, periodBytes]
@[simp] theorem length_drainEndBytes (n : Nat) (k : EntryKind) (c : EndCause) (m : Option Int) :
    (drainEndBytes n k c m).length = 9 := by simp [drainEndBytes]

/-- The longest notice is a DRAIN_END (R186). -/
theorem Notice.length_bytes_le (n : Notice) : n.bytes.length ≤ 11 := by
  cases n <;> simp [Notice.bytes, Notice.fields]

/-! ### What the owning rules answer (R205, R210) -/

/-- The answer of a reply fits in a slot; a refusal has none. -/
def Reply.answerFits : Reply → Prop
  | .done ans _ | .told ans => ans.length ≤ Config.answerRoom
  | .refused _ => True

@[simp] theorem Reply.answerFits_refused (st : Status) : (Reply.refused st).answerFits := trivial

@[simp] theorem Reply.answerFits_told (ans : List Byte) : (Reply.told ans).answerFits ↔ ans.length ≤ 1024 := Iff.rfl

@[simp] theorem Reply.answerFits_done (ans : List Byte) (new : State) :
    (Reply.done ans new).answerFits ↔ ans.length ≤ 1024 := Iff.rfl

theorem byCrane_answerFits {p : Port} {rule : Crane → Reply} (fits : ∀ c, (rule c).answerFits) :
    (byCrane p rule).answerFits := by
  unfold byCrane
  split
  · exact fits _
  · trivial

theorem statusRule_answerFits (p : Port) (s : State) : (statusRule p s).answerFits := by
  cases p <;> simp [statusRule, State.statusCommon, State.statusRole, State.statusCrane, State.statusFeed, State.statusOffice]

/-- Four notices at most are taken at once (R187). -/
theorem takeNoticeRule_answerFits (p : Port) (s : State) : (takeNoticeRule p s).answerFits := by
  have few : (((s.notices.get p).items.take 4).flatMap Notice.bytes).length ≤ 4 * 11 := by
    rw [List.length_flatMap]
    refine (List.sum_le_card_nsmul _ 11 fun n mem => ?_).trans ?_
    · obtain ⟨x, -, rfl⟩ := List.mem_map.mp mem
      exact x.length_bytes_le
    · have := List.length_take_le 4 (s.notices.get p).items
      simp only [List.length_map, smul_eq_mul]
      omega
  simp only [takeNoticeRule_eq, Reply.answerFits_done, List.length_append, length_u8]
  omega

/-- Sixteen lane records of three bytes each (R25). -/
theorem readLanesRule_answerFits {s : State} (count : s.lanes.length = Config.laneCount) : (readLanesRule s).answerFits := by
  simp [readLanesRule, length_flatMap_const Lane.length_bytes, count, Config.laneCount]

/-- Records are taken as far as they fit beside the four bytes before them (R183). -/
theorem takeRecordsRule_answerFits (body : List Byte) (s : State) : (takeRecordsRule body s).answerFits := by
  have fits := (fitsMost_fitting (readU8 body) (Config.answerRoom - 4) s.records.items).fits
  unfold takeRecordsRule
  dsimp only
  split
  · trivial
  · simp only [Config.answerRoom] at fits
    simp only [RecordQueue.taken, Config.answerRoom, Reply.answerFits_done, List.length_append, length_u8, length_u16]
    omega

theorem closeJobRule_answerFits (body : List Byte) (s : State) : (closeJobRule body s).answerFits := by
  unfold closeJobRule
  dsimp only
  repeat' split
  all_goals simp [closeJobWait, closeJobNow]

/-- The owning rules of a crane's requests answer a few fields. -/
theorem craneRule_answerFits (r : Request) (p : Port) (body : List Byte) (s : State)
    (crane : r ∈ ([.reserve, .release, .join, .lower, .submerged, .withdraw, .clear, .turned, .leave, .dropped, .readHook,
      .zeroHook] : List Request)) : (ownRule r p body s).answerFits := by
  cases r with
  | reserve | release | join | lower | submerged | withdraw | clear | turned | leave | dropped | readHook | zeroHook =>
    refine byCrane_answerFits fun c => ?_
    simp only [reserveRule, releaseRule, joinRule, lowerRule, submergedRule, withdrawRule, clearRule, turnedRule, leaveRule,
      droppedRule, readHookRule, zeroHookRule]
    repeat' split
    all_goals simp
  | _ => simp at crane

/-- Every answer fits, READ LANES' for the lanes that there are. -/
theorem ownRule_answerFits (r : Request) (p : Port) (body : List Byte) {s : State}
    (count : s.lanes.length = Config.laneCount) : (ownRule r p body s).answerFits := by
  cases r with
  | status => exact statusRule_answerFits p s
  | takeNotice => exact takeNoticeRule_answerFits p s
  | readLanes => exact readLanesRule_answerFits count
  | takeRecords => exact takeRecordsRule_answerFits body s
  | closeJob => exact closeJobRule_answerFits body s
  | readBook => simp [ownRule, readBookRule]
  | charge | chargeIn | chargeAbort | skim | setupKettle | tuneKettle | setClass | readClass | setHook | openJob | readJob
  | removeJob | rebase | openBook | resume | hold | clearFoul | reconcileNow =>
    simp only [ownRule, chargeRule, chargeInRule, chargeAbortRule, skimRule, setupKettleRule, tuneKettleRule, setClassRule,
      readClassRule, setHookRule, openJobRule, readJobRule, removeJobRule, rebaseRule, openBookRule, resumeRule, holdRule,
      clearFoulRule, reconcileNowRule]
    repeat' split
    all_goals simp
  | _ => exact craneRule_answerFits _ p body s (by simp)

end Sys2Proof.Machine

namespace Sys2Proof.Machine

/-! ### Events leave the port engines alone (R205) -/

section EngineFrames

variable (s : State) (c : Crane)

@[simp] theorem State.endEvent_engines (new : State) (d : Deadline) : (s.endEvent new d).engines = new.engines := by
  rw [State.endEvent_frame]

@[simp] theorem State.endRequest_engines (new : State) : (s.endRequest new).engines = new.engines := by
  rw [State.endRequest_frame]

@[simp] theorem State.account_engines (cause : EndCause) (reported : Option Int) :
    (s.account c cause reported).engines = s.engines :=
  (congrArg State.engines (s.account_relink s.inputs s.engines c cause reported) :)

@[simp] theorem State.endReservation_engines (mark : Option Nat) : (s.endReservation c mark).engines = s.engines :=
  (congrArg State.engines (s.endReservation_relink s.inputs s.engines c mark) :)

@[simp] theorem State.takeTimer_engines (t : TimerStep) (reported : Option Int) :
    (s.takeTimer c t reported).engines = s.engines := by
  unfold State.takeTimer State.endDrain
  dsimp only
  split
  · split
    · exact State.account_engines { s with timers := s.timers.set c t.timer } c _ reported
    · rfl
  · rfl

@[simp] theorem State.scanWatch_engines : (s.scanWatch c).engines = s.engines := by
  unfold State.scanWatch State.scanBlanking State.scanAfter
  dsimp only
  split
  · rfl
  · split <;> rfl
  · split
    · exact State.takeTimer_engines { s with watches := s.watches.set c _ } c _ _
    · rfl

@[simp] theorem State.expireWithin_engines (lead : Nat) : (s.expireWithin c lead).engines = s.engines := by
  rw [State.expireWithin_frame]

@[simp] theorem State.scanHook_engines (r : Reading) : (s.scanHook c r).engines = s.engines := by
  unfold State.scanHook State.faultHook State.noticeFault
  dsimp only
  split
  · split <;> rfl
  · rfl

@[simp] theorem State.loadScan_engines (rA rB : Reading) (first : Crane) : (s.loadScan rA rB first).engines = s.engines := by
  simp [State.loadScan, State.scanHooks, State.elapse]

@[simp] theorem State.tickTimer_engines : (s.tickTimer c).engines = s.engines := by
  unfold State.tickTimer
  split <;> simp

@[simp] theorem State.meetCompare_engines : (s.meetCompare c).engines = s.engines := by
  unfold State.meetCompare
  dsimp only
  split <;> simp

@[simp] theorem State.saturateTimer_engines : (s.saturateTimer c).engines = s.engines := by
  unfold State.saturateTimer
  dsimp only
  split <;> simp

@[simp] theorem State.reachAfter_engines : (s.reachAfter c).engines = s.engines := by
  unfold State.reachAfter
  dsimp only
  split <;> rfl

@[simp] theorem State.reconcile_engines : s.reconcile.engines = s.engines := by
  unfold State.reconcile
  dsimp only
  repeat' split
  all_goals rfl

@[simp] theorem State.scanBath_engines (level temp : Reading) : (s.scanBath level temp).engines = s.engines := by
  have quiet : (s.scanQuiet level temp).engines = s.engines := by
    unfold State.scanQuiet State.judgeQuiet
    split <;> rfl
  rw [State.scanBath_eq, State.judgeFeed_engines]
  split
  · exact (State.reconcile_engines _).trans quiet
  · exact quiet

@[simp] theorem State.fallStop_engines : s.fallStop.engines = s.engines := by
  unfold State.fallStop
  split
  · rfl
  · exact State.notifyAll_engines _ _

@[simp] theorem State.riseStop_engines : s.riseStop.engines = s.engines := by
  unfold State.riseStop
  split <;> rfl

@[simp] theorem State.lapseEntry_engines (ctx : Context) : (s.lapseEntry ctx).engines = s.engines := by
  unfold State.lapseEntry
  split
  · cases ctx <;> simp [State.lapseCrane, State.lapseFeed, State.endFeed]
  · rfl

@[simp] theorem State.runOut_engines (ctx : Context) : (s.runOut ctx).engines = s.engines := by
  unfold State.runOut
  split <;> simp

/-- A request that its owning rule takes leaves the engines: the port's own engine answers it (R205). -/
theorem ownRule_engines {s new : State} {r : Request} {p : Port} {body ans : List Byte}
    (taken : ownRule r p body s = .done ans new) : new.engines = s.engines := by
  have same := ownRule_relink s s.inputs s.engines body r p
  change ownRule r p body s = _ at same
  rw [taken] at same
  injection same with _ same
  rw [same]
  rfl

/-- An event leaves the engines, where what a running part makes of it does. -/
theorem State.whileRunning_engines {act : State → State} (kept : (act s).engines = s.engines) :
    (s.whileRunning act).engines = s.engines := by
  unfold State.whileRunning
  split
  · exact kept
  · rfl

end EngineFrames

/-! ### Answers in the slots (R205, R210) -/

/-- A slot holds no answer longer than 1024 bytes, and one besides OK alone only with none (R205). -/
def AnswerSlot.fits (slot : AnswerSlot) : Prop :=
  ∀ st bytes, slot = .ready st bytes → bytes.length ≤ Config.answerRoom ∧ (st ≠ .ok → bytes = [])

theorem AnswerSlot.empty_fits : AnswerSlot.empty.fits := fun _ _ ready => nomatch ready

theorem AnswerSlot.refusal_fits (st : Status) : (AnswerSlot.ready st []).fits := by
  rintro _ _ ⟨⟩
  exact ⟨Nat.zero_le _, fun _ => rfl⟩

theorem AnswerSlot.ok_fits {ans : List Byte} (short : ans.length ≤ Config.answerRoom) : (AnswerSlot.ready .ok ans).fits := by
  rintro _ _ ⟨⟩
  exact ⟨short, fun other => absurd rfl other⟩

theorem State.answersFit_iff (s : State) : s.answersFit ↔ ∀ p, (s.engines.get p).slot.fits := Iff.rfl

/-- Answers that fit still fit where every port has the slot it had, or one that fits. -/
theorem State.answersFit_of_slots {s t : State} (fits : s.answersFit)
    (slots : ∀ p, (t.engines.get p).slot = (s.engines.get p).slot ∨ (t.engines.get p).slot.fits) : t.answersFit := fun p => by
  rcases slots p with same | good
  · exact fun st bytes ready => fits p st bytes (same.symm.trans ready)
  · exact good

theorem State.answersFit_of_engines {s t : State} (fits : s.answersFit) (same : t.engines = s.engines) : t.answersFit :=
  State.answersFit_of_slots fits fun p => .inl (by rw [same])

theorem State.answersFit.engine {s : State} (fits : s.answersFit) (p : Port) {e : Engine}
    (slot : e.slot = (s.engines.get p).slot ∨ e.slot.fits) : ({ s with engines := s.engines.set p e } : State).answersFit :=
  State.answersFit_of_slots fits fun q => by
    by_cases own : q = p
    · subst own
      simpa using slot
    · exact .inl (by rw [PerPort.get_set_other _ _ own])

theorem State.answersFit.setSlot {s : State} (fits : s.answersFit) (p : Port) {slot : AnswerSlot} (good : slot.fits) :
    (s.setSlot p slot).answersFit := fits.engine p (.inr good)

theorem State.answersFit.endTransfer {s : State} (fits : s.answersFit) (p : Port) : (s.endTransfer p).answersFit :=
  fits.engine p (.inl rfl)

/-- The end of a restart leaves the engines as step 2 of R198 set them. -/
theorem State.released_engines (s : State) (count : Nat) : (s.released count).engines = s.engines := by
  rw [State.released_eq, State.judgeLines_engines]
  split
  · rw [State.fallStop_engines, State.restartNotices_frame]
  · rw [State.restartNotices_frame]

/-- Every slot comes up EMPTY (R198, R205). -/
theorem State.restartWhole_answersFit (s : State) : s.restartWhole.answersFit := by
  rw [State.answersFit_iff, State.restartWhole, State.released_engines]
  exact fun p => by cases p <;> exact AnswerSlot.empty_fits

/-! ### Sixteen lanes and answers that fit -/

/-- No change of the lane map adds or takes a lane record (R1). -/
theorem MapMove.keeps_laneCount {m m' : LaneMap} (move : MapMove m m') (count : m.lanes.length = Config.laneCount) :
    m'.lanes.length = Config.laneCount := by
  cases move with
  | reserved | shared => exact (length_takeSpan _ _ _ _).trans count
  | freed | fouled | cleared => exact List.length_map _ |>.trans count
  | setUp => exact count
  | rebuilt => exact length_lanesRestored _

theorem State.mapPath.keeps_laneCount {s t : State} (path : s.mapPath t) (count : s.lanes.length = Config.laneCount) :
    t.lanes.length = Config.laneCount := by
  unfold State.mapPath at path
  change t.laneMap.lanes.length = _
  generalize t.laneMap = m at path
  induction path with
  | refl => exact count
  | tail _ move ih => exact move.keeps_laneCount ih

/-- A part with sixteen lane records whose answers fit, so that the answer of a READ LANES that follows fits too. -/
structure State.linksFit (s : State) : Prop where
  count : s.lanes.length = Config.laneCount
  answers : s.answersFit

namespace State.linksFit

variable {s : State}

theorem inputs (fit : s.linksFit) (i : Inputs) : ({ s with inputs := i } : State).linksFit := ⟨fit.count, fit.answers⟩

theorem serve (fit : s.linksFit) (p : Port) (r : Request) (body : List Byte) : (s.serve p r body).linksFit := by
  refine ⟨(s.serve_mapPath p r body).keeps_laneCount fit.count, ?_⟩
  have own := ownRule_answerFits r p body fit.count
  rcases s.serve_cases p r body with ⟨st, -, served⟩ | ⟨ans, told, served⟩ | ⟨ans, new, taken, served⟩
  · rw [served]
    exact fit.answers.setSlot p (AnswerSlot.refusal_fits st)
  · rw [told] at own
    rw [served]
    exact fit.answers.setSlot p (AnswerSlot.ok_fits own)
  · rw [taken] at own
    have engines : new.engines = s.engines := ownRule_engines taken
    have ended : (s.endRequest new).answersFit :=
      State.answersFit_of_engines fit.answers ((s.endRequest_engines new).trans engines)
    rw [served]
    exact ended.setSlot p (AnswerSlot.ok_fits own)

theorem settle (fit : s.linksFit) (p : Port) : (s.settle p).linksFit := by
  unfold State.settle
  split
  · exact fit.serve p _ _
  · exact fit

theorem judge (fit : s.linksFit) (p : Port) (rx : ReceiveBuffer) (check : Byte) : (s.judge p rx check).answersFit := by
  rcases State.judge_cases (s := s) (p := p) (rx := rx) (check := check) with ⟨st, judged⟩ | ⟨r, -, -, -, judged⟩
  · rw [judged]
    exact fit.answers.setSlot p (AnswerSlot.refusal_fits st)
  · rw [judged]
    exact (fit.serve p r _).answers

theorem writeTransfer (fit : s.linksFit) (p : Port) (addr : LinkAddress) (code : Byte) (body : List Byte) (check : Byte) :
    (s.writeTransfer p addr code body check).answersFit := by
  unfold State.writeTransfer
  split
  · exact ((fit.settle p).judge p _ check).endTransfer p
  · exact fit.answers

/-- A read leaves its slot EMPTY (R206). -/
theorem readFrom (fit : s.linksFit) (p : Port) (clocked : Nat) : (s.readFrom p clocked).answersFit :=
  State.answersFit.endTransfer (s := (s.settle p).sendAnswer p clocked)
    ((fit.settle p).answers.engine p (.inr AnswerSlot.empty_fits)) p

theorem dropWrite (fit : s.linksFit) (p : Port) : (s.dropWrite p).answersFit := (fit.settle p).answers.endTransfer p

/-- A flush settles every slot and drops every transfer (R193). -/
theorem flushPart (fit : s.linksFit) : s.flushPart.answersFit := by
  unfold State.flushPart
  split
  · have settled := ((((fit.settle .craneA).settle .craneB).settle .feed).settle .office).answers
    exact State.answersFit_of_slots settled fun p => .inl (by cases p <;> rfl)
  · exact fit.answers

theorem tryRestart (fit : s.linksFit) (upsets : List Upset) (cut : Option RestartCut) :
    (s.tryRestart upsets cut).answersFit := by
  unfold State.tryRestart State.restart
  split
  · cases cut with
    | none => exact State.restartWhole_answersFit _
    | some k => exact fit.answers
  · exact fit.answers

end State.linksFit

/-- Whatever command a part takes, its answers fit. -/
theorem exec_answersFit {i : Instr} {s t : State} (fit : s.linksFit) (h : exec i s = .next t) : t.answersFit := by
  cases i <;> cases h
  case unknownRequest => exact fit.writeTransfer _ _ _ _ _
  case readTransfer p addr clocked =>
    split
    · exact fit.readFrom p clocked
    · exact fit.answers
  case shortWrite p addr bytes ending =>
    split
    · exact fit.dropWrite p
    · exact fit.answers
  case linkLowTimeout p during =>
    split
    · cases during with
      | idle => exact fit.answers
      | writing bytes => exact fit.dropWrite p
      | reading clocked => exact fit.readFrom p clocked
    · exact fit.answers
  case lapseExpiry | loadScan | immersionLimitExpiry | drainTimerTick | timedCompareMet | drainSaturation | blankingEnd =>
    exact State.answersFit_of_engines fit.answers (State.whileRunning_engines s (by simp [State.runOuts, State.expireImmersion]))
  case bathScan => exact State.answersFit_of_engines fit.answers (State.whileRunning_engines s (by simp [State.scrub]))
  case stopFall =>
    exact State.answersFit_of_engines fit.answers
      (State.whileRunning_engines { s with inputs := { s.inputs with stopLow := true } } (by simp))
  case stopRise =>
    exact State.answersFit_of_engines fit.answers
      (State.whileRunning_engines { s with inputs := { s.inputs with stopLow := false } } (by simp))
  case supplyFailFall | resetAssert => exact (fit.inputs _).flushPart
  case resetRelease upsets cut | supplyFailRise upsets cut => exact (fit.inputs _).tryRestart upsets cut
  case powerOn upsets cut =>
    split
    · exact fit.answers
    · exact (fit.inputs _).tryRestart upsets cut
  case supplyCollapse tears =>
    rw [State.collapse_frame]
    exact fit.flushPart
  all_goals exact fit.writeTransfer _ _ _ _ _

/-- Settles O11: no change of the lane map adds a record, and every answer that comes to stand in a slot fits there. -/
theorem answers_fit_their_slots : Obligations.Answers_fit_their_slots := by
  intro s t count answers h
  refine ⟨(step_mapPath h).keeps_laneCount count, ?_⟩
  unfold step at h
  split at h
  · cases h
    exact answers
  · rename_i rest _
    exact exec_answersFit (s := { s with pending := rest }) ⟨count, answers⟩ h

end Sys2Proof.Machine
